-- ==== Sys2Proof/Word.lean ====
section
/-! DEFINITION. The byte, and the plainest conversions between bits and bytes (00_scope.md R8, R9). -/

namespace Sys2Proof

/-- A register byte: 8 bits, bit 0 the least significant (R8, R9). -/
abbrev Byte := BitVec 8

/-- The bit `b` as a number: 1 or 0. -/
def bitNat (b : Bool) : Nat := if b then 1 else 0

/-- The bit `b` as a byte: 0x01 or 0x00. -/
def bitByte (b : Bool) : Byte := if b then 1#8 else 0#8

end Sys2Proof
end

