-- ==== Sys2Proof/Config.lean ====
section
/-! DEFINITION. The configuration parameters of 00_scope.md R7 (fixed for a model instance, R29), and the free
values: constants without a body, of which no proof can know a value. -/

namespace Sys2Proof

/-- What the transport answers to one `Xfer` (10_state.md R24): the bytes shifted in, or an opaque error value.
The error value is a natural number (assumption log 6; DESIGN CHOICE, safe). -/
inductive Answer where
  | reply (bytes : List Byte)
  | fail (e : Nat)
  deriving DecidableEq, Repr, Inhabited

namespace Config

/-- `FXOSC`, the reference clock in Hz. -/
def fxosc : Nat := 26000000

/-- `FIFO_CAP`, the size in bytes of each FIFO. -/
def fifoCap : Nat := 64

/-- `FREQ_BITS`, the width of the frequency word. -/
def freqBits : Nat := 22

/-- `DRATE_M_BITS` and `DRATE_E_BITS`. -/
def drateMBits : Nat := 8
def drateEBits : Nat := 4

/-- `DEV_M_BITS` and `DEV_E_BITS`. -/
def devMBits : Nat := 3
def devEBits : Nat := 3

/-- `CHBW_M_BITS` and `CHBW_E_BITS`. -/
def chbwMBits : Nat := 2
def chbwEBits : Nat := 2

/-- `STATUS_READ_BURST`: header bit 6 of a status-register read (R35, D3). -/
def statusReadBurst : Bool := true

/-- `DUMMY_BYTE`: what is sent in the data slots of a read (D4). -/
def dummyByte : Byte := 0x00#8

/-- `CRC_FAIL_LEVEL`: the value of LQI bit 7 that means the CRC failed (R39, D31). -/
def crcFailLevel : Bool := true

/-- `RSSI_OFFSET` in dB: OPEN, a natural number at most 255 (R7, R153, D14). FREE: no body (assumption log 9; safe). -/
opaque rssiOffset : BitVec 8

/-- `PATABLE_CAP` in bytes: OPEN (R7, D15). FREE: no body (assumption log 9; safe). -/
opaque patableCap : Nat

/-- `T_SLEEP`, the machine-state code the host awaits for Sleep: OPEN (R254). FREE (assumption log 10; safe). -/
opaque tSleep : BitVec 5

/-- `T_CAL`, the machine-state code the host awaits for Calibrate: OPEN (R254). FREE (assumption log 10; safe). -/
opaque tCal : BitVec 5

/-- The transport's whole answer to the transaction numbered by the argument, where the run lists no answer for it
(R50). FREE (assumption log 5; safe). -/
opaque chipAnswer : Nat → Answer

/-- The byte the chip shifts out in one place of one transaction (first the transaction's number, then the place),
where the run lists no byte for it (R50). FREE (assumption log 5; safe). -/
opaque chipByte : Nat → Nat → Byte

/-- How many bytes of an abandoned request's frame were shifted out before `rst` stopped it (R28, U14).
FREE (assumption log 8; safe). -/
opaque abandonedBytes : Nat → Nat

end Config

end Sys2Proof
end

