-- ==== Sys2Proof/Syntax.lean ====
section
/-! DEFINITION. The instructions: one constructor for every row of spec/opcode_table.json, 35 block requests
(30_encoding.md R80) and 12 wire-header rows (R70 to R73); and what the outside puts on the request port. -/

namespace Sys2Proof

/-- A register reference as the request port carries it: a tag code and a 6-bit address (R30, R77). Pairs outside
`REGMAP` can be written, and a request carrying one is refused with an error response. -/
structure Ref where
  tag  : BitVec 3
  addr : BitVec 6
  deriving DecidableEq, Repr

/-- The direction operand: RX = 0, TX = 1 (R77). -/
inductive Dir where
  | rx
  | tx
  deriving DecidableEq, Repr

/-- The instructions. A `bytes[n]` operand is a list whose length is the operand n (R77; assumption log 13):
`fifoWrite data` is `FIFO_WRITE data.length, data`. -/
inductive Instr where
  -- header and status utilities, bit-field multiplexer (0x0_)
  | hdrEnc (rw b : Bool) (a : BitVec 6)
  | hdrDec (h : Byte)
  | statusDec (s : Byte)
  | statusGet
  | fieldGet (v : Byte) (off : BitVec 3) (w : BitVec 4)
  | fieldSet (v : Byte) (off : BitVec 3) (w : BitVec 4) (x : Byte)
  -- bus transactions (0x1_)
  | regRead (r : Ref)
  | regWrite (r : Ref) (value : Byte)
  | strobe (r : Ref)
  | fifoRead (n : BitVec 8)
  | fifoWrite (data : List Byte)
  | patableRead (n : BitVec 8)
  | patableWrite (data : List Byte)
  -- unit converters (0x2_)
  | freqEnc (hz : BitVec 32)
  | freqDec (f2 f1 f0 : Byte)
  | drateEnc (baud : BitVec 32)
  | drateDec (m : BitVec 8) (e : BitVec 4)
  | devEnc (hz : BitVec 32)
  | devDec (m e : BitVec 3)
  | chbwEnc (hz : BitVec 32)
  | chbwDec (m e : BitVec 2)
  | rssiDbm (raw : Byte)
  -- status monitor and outcome decoders (0x3_)
  | msDec (v : Byte)
  | msRead
  | msMatch (target : BitVec 5)
  | fifoDec (v : Byte)
  | fifoPoll (d : Dir)
  | stableStart (d : Dir)
  | stableStep (d : Dir)
  | crcDec (lqi : Byte)
  | rxOutcome (ov : Bool) (lqi len : Byte)
  | txOutcome
  | txFrame (addr : Byte) (payload : List Byte)
  | rxFrame (buf : List Byte)
  | ufClear
  -- wire-header rows: r is header bit 7, b is header bit 6, a is bits 5:0
  | hdrConfigReadSingle (a : BitVec 6)
  | hdrConfigWriteSingle (a : BitVec 6)
  | hdrConfigReadBurst (a : BitVec 6)
  | hdrConfigWriteBurst (a : BitVec 6)
  | hdrStatusRead (a : BitVec 6)
  | hdrStrobe (r : Bool) (a : BitVec 6)
  | hdrPatable (r b : Bool)
  | hdrRxfifo (b : Bool)
  | hdrTxfifo (b : Bool)
  | hdrReserved2F (r b : Bool)
  | hdrReserved37 (r : Bool)
  | hdrReservedWriteBurstStatus (a : BitVec 6)
  deriving DecidableEq, Repr

/-- Why a list of bytes is not a request of the port's typed fields (assumption log 1). -/
inductive DecodeError where
  /-- The opcode is none of R80's. The spec gives this case an effect: `IllegalRequest(0x00xx)` (R76). -/
  | reservedOpcode
  /-- A field of the opcode's row is missing. -/
  | operandMissing
  /-- A byte carries a value wider than its field: "a value wider than the field cannot be written down" (R78). -/
  | operandTooWide
  /-- Bytes are left over after the row's last field. -/
  | operandExtra
  deriving DecidableEq, Repr

/-- What the outside puts on the block's inputs, one item a step (10_state.md R25, R27, R28). -/
inductive PortInput where
  /-- A request: the opcode and its operand fields in bytes (R25, R76; the layout in bytes is assumption log 1). -/
  | request (op : Byte) (operands : List Byte)
  /-- A header byte presented to the header decoder (R72; assumption log 4). -/
  | header (h : Byte)
  /-- The reset input, asserted between two requests (R28). -/
  | rst
  /-- The reset input, asserted while this request is in progress: the request is abandoned (R28). -/
  | rstDuring (op : Byte) (operands : List Byte)
  deriving DecidableEq, Repr

end Sys2Proof
end

