-- ==== Sys2Proof/Machine/RegMap.lean ====
section
/-! DEFINITION. The header byte and its classes (30_encoding.md R70 to R73), the table `REGMAP` (10_state.md R30 to
R35), the field catalogue (41_access_protocol.md R117) and `MARC_CODES` (43_status_monitor.md R170). -/

namespace Sys2Proof.Machine

/-- The tags of a register reference (R30). -/
inductive Tag where
  | config
  | status
  | strobe
  | fifo
  | patable
  deriving DecidableEq, Repr

/-- The tag codes CONFIG = 0, STATUS = 1, STROBE = 2, FIFO = 3, PATABLE = 4 (R77). -/
def Tag.code (t : Tag) : BitVec 3 :=
  match t with
  | .config => 0
  | .status => 1
  | .strobe => 2
  | .fifo => 3
  | .patable => 4

/-- A row of `REGMAP`. -/
structure RegRow where
  tag  : Tag
  addr : BitVec 6
  name : String
  deriving DecidableEq, Repr

/-- Rows of one tag at consecutive addresses from `a` on. -/
def rowsFrom (t : Tag) (a : Nat) (names : List String) : List RegRow :=
  match names with
  | [] => []
  | n :: rest => ⟨t, BitVec.ofNat 6 a, n⟩ :: rowsFrom t (a + 1) rest

/-- The 47 configuration registers, 0x00 to 0x2E (R31). -/
def configRows : List RegRow :=
  rowsFrom .config 0x00
    ["IOCFG2", "IOCFG1", "IOCFG0", "FIFOTHR", "SYNC1", "SYNC0", "PKTLEN", "PKTCTRL1", "PKTCTRL0", "ADDR", "CHANNR",
     "FSCTRL1"] ++
  rowsFrom .config 0x0C
    ["FSCTRL0", "FREQ2", "FREQ1", "FREQ0", "MDMCFG4", "MDMCFG3", "MDMCFG2", "MDMCFG1", "MDMCFG0", "DEVIATN", "MCSM2",
     "MCSM1"] ++
  rowsFrom .config 0x18
    ["MCSM0", "FOCCFG", "BSCFG", "AGCCTRL2", "AGCCTRL1", "AGCCTRL0", "WOREVT1", "WOREVT0", "WORCTRL", "FREND1", "FREND0",
     "FSCAL3"] ++
  rowsFrom .config 0x24
    ["FSCAL2", "FSCAL1", "FSCAL0", "RCCTRL1", "RCCTRL0", "FSTEST", "PTEST", "AGCTEST", "TEST2", "TEST1", "TEST0"]

/-- The 13 command strobes; 0x37 is assigned to none (R32). -/
def strobeRows : List RegRow :=
  rowsFrom .strobe 0x30 ["SRES", "SFSTXON", "SXOFF", "SCAL", "SRX", "STX", "SIDLE"] ++
  rowsFrom .strobe 0x38 ["SWOR", "SPWD", "SFRX", "SFTX", "SWORRST", "SNOP"]

/-- The 14 status registers (R33). -/
def statusRows : List RegRow :=
  rowsFrom .status 0x30
    ["PARTNUM", "VERSION", "FREQEST", "LQI", "RSSI", "MARCSTATE", "WORTIME1", "WORTIME0", "PKTSTATUS", "VCO_VC_DAC",
     "TXBYTES", "RXBYTES", "RCCTRL1_STATUS", "RCCTRL0_STATUS"]

/-- The two multi-byte spaces (R34). -/
def spaceRows : List RegRow := [⟨.patable, 0x3E, "PATABLE"⟩, ⟨.fifo, 0x3F, "FIFO"⟩]

/-- `REGMAP`: every valid reference (R30 to R34). -/
def regMap : List RegRow := configRows ++ strobeRows ++ statusRows ++ spaceRows

/-- The pair (tag, addr) is in `REGMAP`. -/
def inRegMap (r : Ref) : Bool := regMap.any fun row => row.tag.code = r.tag && row.addr = r.addr

/-- The reference a name stands for in the spec's listings (R81). -/
def refNamed (name : String) : Option Ref :=
  (regMap.find? fun row => row.name = name).map fun row => ⟨row.tag.code, row.addr⟩

/-- The address is a CONFIG address, 0x00 to 0x2E (R31). -/
def isConfigAddr (a : BitVec 6) : Bool := inRegMap ⟨Tag.config.code, a⟩

/-- The address is a STROBE address, 0x30 to 0x3D but for 0x37 (R32). -/
def isStrobeAddr (a : BitVec 6) : Bool := inRegMap ⟨Tag.strobe.code, a⟩

/-- The address is in the range 0x30 to 0x3D that status registers and strobes share (R33, R35, R72). -/
def inStatusRange (a : BitVec 6) : Bool := 0x30 ≤ a.toNat && a.toNat ≤ 0x3D

/-- The header classes (R72). -/
inductive HdrClass where
  | config
  | status
  | strobe
  | patable
  | rxfifo
  | txfifo
  | reserved
  deriving DecidableEq, Repr

/-- The class codes CONFIG 0, STATUS 1, STROBE 2, PATABLE 3, RXFIFO 4, TXFIFO 5, RESERVED 7 (R72). -/
def HdrClass.code (c : HdrClass) : BitVec 3 :=
  match c with
  | .config => 0
  | .status => 1
  | .strobe => 2
  | .patable => 3
  | .rxfifo => 4
  | .txfifo => 5
  | .reserved => 7

/-- The header byte `(RW << 7) | (B << 6) | A` (R70, R100). -/
def headerByte (rw b : Bool) (a : BitVec 6) : Byte :=
  (bitByte rw <<< 7) ||| (bitByte b <<< 6) ||| a.setWidth 8

/-- Header bit 7. -/
def headerRw (h : Byte) : Bool := h.getLsbD 7

/-- Header bit 6. -/
def headerB (h : Byte) : Bool := h.getLsbD 6

/-- Header bits 5:0. -/
def headerAddr (h : Byte) : BitVec 6 := h.extractLsb' 0 6

/-- The class of a header byte (R72). -/
def headerClass (h : Byte) : HdrClass :=
  let a := headerAddr h
  if a = 0x3F then (if headerRw h then .rxfifo else .txfifo)
  else if a = 0x3E then .patable
  else if isConfigAddr a then .config
  else if inStatusRange a && !headerB h then (if isStrobeAddr a then .strobe else .reserved)
  else if inStatusRange a && headerB h && headerRw h then .status
  else .reserved

/-- The machine states, in the order of their codes (R170). -/
inductive MarcState where
  | sleep | idle | xoff | vcoonMc | regonMc | mancal | vcoon | regon
  | startcal | bwboost | fsLock | ifadcon | endcal | rx | rxEnd | rxRst
  | txrxSwitch | rxfifoOverflow | fstxon | tx | txEnd | rxtxSwitch | txfifoUnderflow
  deriving DecidableEq, Repr

/-- `MARC_CODES`: the code of each machine state (R170). -/
def MarcState.code (m : MarcState) : BitVec 5 :=
  match m with
  | .sleep => 0x00
  | .idle => 0x01
  | .xoff => 0x02
  | .vcoonMc => 0x03
  | .regonMc => 0x04
  | .mancal => 0x05
  | .vcoon => 0x06
  | .regon => 0x07
  | .startcal => 0x08
  | .bwboost => 0x09
  | .fsLock => 0x0A
  | .ifadcon => 0x0B
  | .endcal => 0x0C
  | .rx => 0x0D
  | .rxEnd => 0x0E
  | .rxRst => 0x0F
  | .txrxSwitch => 0x10
  | .rxfifoOverflow => 0x11
  | .fstxon => 0x12
  | .tx => 0x13
  | .txEnd => 0x14
  | .rxtxSwitch => 0x15
  | .txfifoUnderflow => 0x16

/-- Every machine state, in code order. -/
def marcStates : List MarcState :=
  [.sleep, .idle, .xoff, .vcoonMc, .regonMc, .mancal, .vcoon, .regon,
   .startcal, .bwboost, .fsLock, .ifadcon, .endcal, .rx, .rxEnd, .rxRst,
   .txrxSwitch, .rxfifoOverflow, .fstxon, .tx, .txEnd, .rxtxSwitch, .txfifoUnderflow]

/-- The machine state a code stands for; none for a code outside `MARC_CODES` (R170, R171). -/
def marcOfCode (c : BitVec 5) : Option MarcState := marcStates.find? fun m => m.code = c

/-- The name of the status byte's STATE field, bits 6:4 (R36). Reported only; nothing decides on it. -/
def chipStateName (c : BitVec 3) : String :=
  match c.toNat with
  | 0 => "IDLE"
  | 1 => "RX"
  | 2 => "TX"
  | 3 => "FSTXON"
  | 4 => "CALIBRATE"
  | 5 => "SETTLING"
  | 6 => "RXFIFO_OVERFLOW"
  | _ => "TXFIFO_UNDERFLOW"

/-- A row of the field catalogue: a field of a chip register, its offset and its width. -/
structure FieldRow where
  reg   : String
  field : String
  off   : BitVec 3
  w     : BitVec 4
  deriving DecidableEq, Repr

/-- The field catalogue (R117), the layouts of R36 to R44 as operands of `FIELD_GET` and `FIELD_SET`. -/
def fieldCatalogue : List FieldRow :=
  [⟨"STATUS_BYTE", "hi", 4, 4⟩, ⟨"STATUS_BYTE", "lo", 0, 4⟩, ⟨"STATUS_BYTE", "CHIP_RDYn", 7, 1⟩,
   ⟨"STATUS_BYTE", "STATE", 4, 3⟩, ⟨"STATUS_BYTE", "FIFO_BYTES_AVAILABLE", 0, 4⟩,
   ⟨"MARCSTATE", "MARC_STATE", 0, 5⟩,
   ⟨"RXBYTES", "count", 0, 7⟩, ⟨"RXBYTES", "fault", 7, 1⟩,
   ⟨"TXBYTES", "count", 0, 7⟩, ⟨"TXBYTES", "fault", 7, 1⟩] ++
  [⟨"LQI", "CRC", 7, 1⟩, ⟨"LQI", "LQI_EST", 0, 7⟩,
   ⟨"FREQ2", "FREQ[21:16]", 0, 6⟩, ⟨"FREQ1", "FREQ[15:8]", 0, 8⟩, ⟨"FREQ0", "FREQ[7:0]", 0, 8⟩,
   ⟨"MDMCFG4", "CHANBW_E", 6, 2⟩, ⟨"MDMCFG4", "CHANBW_M", 4, 2⟩, ⟨"MDMCFG4", "DRATE_E", 0, 4⟩,
   ⟨"MDMCFG3", "DRATE_M", 0, 8⟩,
   ⟨"DEVIATN", "DEVIATION_E", 4, 3⟩, ⟨"DEVIATN", "DEVIATION_M", 0, 3⟩]

end Sys2Proof.Machine
end

