-- ==== Sys2Proof/WellFormed.lean ====
section
/-! DEFINITION. Which terms of `Instr` are instructions: a byte-list operand's length fits its u8 operand
(30_encoding.md R77), and a wire-header row's address is one the row's row of the table admits (R72, R73). -/

namespace Sys2Proof

/-- The length of a `bytes[n]` operand is a u8 (R8, R77). -/
def lengthFits (data : List Byte) : Bool := decide (data.length ≤ 255)

/-- The term is an instruction of the table. -/
def Instr.wellFormed (i : Instr) : Bool :=
  match i with
  | .fifoWrite data => lengthFits data
  | .patableWrite data => lengthFits data
  | .txFrame _ payload => lengthFits payload
  | .rxFrame buf => lengthFits buf
  | .hdrConfigReadSingle a => Machine.isConfigAddr a
  | .hdrConfigWriteSingle a => Machine.isConfigAddr a
  | .hdrConfigReadBurst a => Machine.isConfigAddr a
  | .hdrConfigWriteBurst a => Machine.isConfigAddr a
  | .hdrStatusRead a => Machine.inStatusRange a
  | .hdrStrobe _ a => Machine.isStrobeAddr a
  | .hdrReservedWriteBurstStatus a => Machine.inStatusRange a
  | .hdrEnc _ _ _ => true
  | .hdrDec _ => true
  | .statusDec _ => true
  | .statusGet => true
  | .fieldGet _ _ _ => true
  | .fieldSet _ _ _ _ => true
  | .regRead _ => true
  | .regWrite _ _ => true
  | .strobe _ => true
  | .fifoRead _ => true
  | .patableRead _ => true
  | .freqEnc _ => true
  | .freqDec _ _ _ => true
  | .drateEnc _ => true
  | .drateDec _ _ => true
  | .devEnc _ => true
  | .devDec _ _ => true
  | .chbwEnc _ => true
  | .chbwDec _ _ => true
  | .rssiDbm _ => true
  | .msDec _ => true
  | .msRead => true
  | .msMatch _ => true
  | .fifoDec _ => true
  | .fifoPoll _ => true
  | .stableStart _ => true
  | .stableStep _ => true
  | .crcDec _ => true
  | .rxOutcome _ _ _ => true
  | .txOutcome => true
  | .ufClear => true
  | .hdrPatable _ _ => true
  | .hdrRxfifo _ => true
  | .hdrTxfifo _ => true
  | .hdrReserved2F _ _ => true
  | .hdrReserved37 _ => true

end Sys2Proof
end

