-- ==== Sys2Proof/Decode.lean ====
section
/-! DEFINITION. Except DecodeError (instructions × List Byte): the request decoder (30_encoding.md R76 to R80), the header decoder (R70 to
R73), and after them the encoder. The byte layout of a request is the model's (assumption log 1; DESIGN CHOICE): the
opcode, then the fields of its row of R80 in order, each in whole bytes, the most significant byte first. -/

namespace Sys2Proof

/-! ### Fields -/

/-- A field of `w` bits in one byte, read from the front of the bytes; the bytes after it are left over. -/
def readField (w : Nat) (xs : List Byte) : Except DecodeError (BitVec w × List Byte) :=
  match xs with
  | [] => .error .operandMissing
  | x :: rest => if x.toNat < 2 ^ w then .ok (x.setWidth w, rest) else .error .operandTooWide

/-- A u1 field. -/
def readBit (xs : List Byte) : Except DecodeError (Bool × List Byte) :=
  match readField 1 xs with
  | .ok (v, rest) => .ok (v.getLsbD 0, rest)
  | .error e => .error e

/-- A u32 field: four bytes, the most significant first. -/
def readWord (xs : List Byte) : Except DecodeError (BitVec 32 × List Byte) :=
  match xs with
  | b3 :: b2 :: b1 :: b0 :: rest => .ok (b3 ++ b2 ++ b1 ++ b0, rest)
  | _ => .error .operandMissing

/-- A `bytes[n]` operand: the u8 length n, then n bytes. -/
def readBytes (xs : List Byte) : Except DecodeError (List Byte × List Byte) :=
  match xs with
  | [] => .error .operandMissing
  | n :: rest =>
    if n.toNat ≤ rest.length then .ok (rest.take n.toNat, rest.drop n.toNat) else .error .operandMissing

/-- A `ref` operand: the tag, then the address. -/
def readRef (xs : List Byte) : Except DecodeError (Ref × List Byte) := do
  let (tag, xs) ← readField 3 xs
  let (addr, xs) ← readField 6 xs
  return (⟨tag, addr⟩, xs)

/-- A `dir` operand: RX = 0, TX = 1 (R77). -/
def readDir (xs : List Byte) : Except DecodeError (Dir × List Byte) := do
  let (d, xs) ← readBit xs
  return (if d then .tx else .rx, xs)

/-! ### Requests -/

/-- The request that begins the operand bytes `xs` under the opcode `op`, and the bytes after it (R80). -/
def decodePrefix (op : Byte) (xs : List Byte) : Except DecodeError (Instr × List Byte) :=
  match op.toNat with
  | 0x01 => do
    let (rw, xs) ← readBit xs
    let (b, xs) ← readBit xs
    let (a, xs) ← readField 6 xs
    return (.hdrEnc rw b a, xs)
  | 0x02 => do
    let (h, xs) ← readField 8 xs
    return (.hdrDec h, xs)
  | 0x03 => do
    let (s, xs) ← readField 8 xs
    return (.statusDec s, xs)
  | 0x04 => .ok (.statusGet, xs)
  | 0x05 => do
    let (v, xs) ← readField 8 xs
    let (off, xs) ← readField 3 xs
    let (w, xs) ← readField 4 xs
    return (.fieldGet v off w, xs)
  | 0x06 => do
    let (v, xs) ← readField 8 xs
    let (off, xs) ← readField 3 xs
    let (w, xs) ← readField 4 xs
    let (x, xs) ← readField 8 xs
    return (.fieldSet v off w x, xs)
  | 0x10 => do
    let (r, xs) ← readRef xs
    return (.regRead r, xs)
  | 0x11 => do
    let (r, xs) ← readRef xs
    let (value, xs) ← readField 8 xs
    return (.regWrite r value, xs)
  | 0x12 => do
    let (r, xs) ← readRef xs
    return (.strobe r, xs)
  | 0x13 => do
    let (n, xs) ← readField 8 xs
    return (.fifoRead n, xs)
  | 0x14 => do
    let (data, xs) ← readBytes xs
    return (.fifoWrite data, xs)
  | 0x15 => do
    let (n, xs) ← readField 8 xs
    return (.patableRead n, xs)
  | 0x16 => do
    let (data, xs) ← readBytes xs
    return (.patableWrite data, xs)
  | 0x20 => do
    let (hz, xs) ← readWord xs
    return (.freqEnc hz, xs)
  | 0x21 => do
    let (f2, xs) ← readField 8 xs
    let (f1, xs) ← readField 8 xs
    let (f0, xs) ← readField 8 xs
    return (.freqDec f2 f1 f0, xs)
  | 0x22 => do
    let (baud, xs) ← readWord xs
    return (.drateEnc baud, xs)
  | 0x23 => do
    let (m, xs) ← readField 8 xs
    let (e, xs) ← readField 4 xs
    return (.drateDec m e, xs)
  | 0x24 => do
    let (hz, xs) ← readWord xs
    return (.devEnc hz, xs)
  | 0x25 => do
    let (m, xs) ← readField 3 xs
    let (e, xs) ← readField 3 xs
    return (.devDec m e, xs)
  | 0x26 => do
    let (hz, xs) ← readWord xs
    return (.chbwEnc hz, xs)
  | 0x27 => do
    let (m, xs) ← readField 2 xs
    let (e, xs) ← readField 2 xs
    return (.chbwDec m e, xs)
  | 0x28 => do
    let (raw, xs) ← readField 8 xs
    return (.rssiDbm raw, xs)
  | 0x30 => do
    let (v, xs) ← readField 8 xs
    return (.msDec v, xs)
  | 0x31 => .ok (.msRead, xs)
  | 0x32 => do
    let (target, xs) ← readField 5 xs
    return (.msMatch target, xs)
  | 0x33 => do
    let (v, xs) ← readField 8 xs
    return (.fifoDec v, xs)
  | 0x34 => do
    let (d, xs) ← readDir xs
    return (.fifoPoll d, xs)
  | 0x35 => do
    let (d, xs) ← readDir xs
    return (.stableStart d, xs)
  | 0x36 => do
    let (d, xs) ← readDir xs
    return (.stableStep d, xs)
  | 0x37 => do
    let (lqi, xs) ← readField 8 xs
    return (.crcDec lqi, xs)
  | 0x38 => do
    let (ov, xs) ← readBit xs
    let (lqi, xs) ← readField 8 xs
    let (len, xs) ← readField 8 xs
    return (.rxOutcome ov lqi len, xs)
  | 0x39 => .ok (.txOutcome, xs)
  | 0x3A => do
    let (addr, xs) ← readField 8 xs
    let (payload, xs) ← readBytes xs
    return (.txFrame addr payload, xs)
  | 0x3B => do
    let (buf, xs) ← readBytes xs
    return (.rxFrame buf, xs)
  | 0x3C => .ok (.ufClear, xs)
  | _ => .error .reservedOpcode

/-- The request of opcode `op` whose operand fields are exactly `xs`. -/
def decodeRequest (op : Byte) (xs : List Byte) : Except DecodeError Instr :=
  match decodePrefix op xs with
  | .ok (i, []) => .ok i
  | .ok (_, _ :: _) => .error .operandExtra
  | .error e => .error e

/-! ### Wire headers -/

/-- The wire-header row a header byte belongs to (R70 to R73): every header byte belongs to exactly one. -/
def decodeHeader (h : Byte) : Instr :=
  let a := Machine.headerAddr h
  let rw := Machine.headerRw h
  let b := Machine.headerB h
  if a = 0x3F then (if rw then .hdrRxfifo b else .hdrTxfifo b)
  else if a = 0x3E then .hdrPatable rw b
  else if a = 0x2F then .hdrReserved2F rw b
  else if Machine.isConfigAddr a then
    match rw, b with
    | true, false => .hdrConfigReadSingle a
    | false, false => .hdrConfigWriteSingle a
    | true, true => .hdrConfigReadBurst a
    | false, true => .hdrConfigWriteBurst a
  else if b then (if rw then .hdrStatusRead a else .hdrReservedWriteBurstStatus a)
  else if a = 0x37 then .hdrReserved37 rw
  else .hdrStrobe rw a

/-! ### Port inputs -/

/-- What the block does with an item of the port. -/
inductive Action where
  /-- Run this instruction. -/
  | run (i : Instr)
  /-- Refuse a request with this reserved opcode by an error response (R76). -/
  | reserved (op : Byte)
  /-- Reset (R28). -/
  | reset
  /-- Reset, and abandon this request (R28). -/
  | abandon (i : Instr)
  /-- Reset, and abandon a request with a reserved opcode. -/
  | abandonReserved
  /-- The bytes are not the typed fields of a request. -/
  | malformed (why : DecodeError)
  deriving DecidableEq, Repr

/-- The decoder of the port. -/
def decodeInput (x : PortInput) : Action :=
  match x with
  | .request op xs =>
    match decodeRequest op xs with
    | .ok i => .run i
    | .error .reservedOpcode => .reserved op
    | .error e => .malformed e
  | .header h => .run (decodeHeader h)
  | .rst => .reset
  | .rstDuring op xs =>
    match decodeRequest op xs with
    | .ok i => .abandon i
    | .error .reservedOpcode => .abandonReserved
    | .error e => .malformed e

/-! ### The encoder -/

/-- A field of at most 8 bits as one byte. -/
def fieldByte {w : Nat} (v : BitVec w) : Byte := v.setWidth 8

/-- A u32 field as four bytes, the most significant first. -/
def wordBytes (v : BitVec 32) : List Byte :=
  [v.extractLsb' 24 8, v.extractLsb' 16 8, v.extractLsb' 8 8, v.extractLsb' 0 8]

/-- A `bytes[n]` operand: its length as a u8, then its bytes. -/
def bytesWithLength (data : List Byte) : List Byte := BitVec.ofNat 8 data.length :: data

/-- A `ref` operand. -/
def refBytes (r : Ref) : List Byte := [fieldByte r.tag, fieldByte r.addr]

/-- A `dir` operand. -/
def dirByte (d : Dir) : Byte :=
  match d with
  | .rx => 0x00#8
  | .tx => 0x01#8

/-- The port item of an instruction: a request's opcode and fields (R80), or a header byte (R70). -/
def encodeInput (i : Instr) : PortInput :=
  match i with
  | .hdrEnc rw b a => .request 0x01#8 [bitByte rw, bitByte b, fieldByte a]
  | .hdrDec h => .request 0x02#8 [h]
  | .statusDec s => .request 0x03#8 [s]
  | .statusGet => .request 0x04#8 []
  | .fieldGet v off w => .request 0x05#8 [v, fieldByte off, fieldByte w]
  | .fieldSet v off w x => .request 0x06#8 [v, fieldByte off, fieldByte w, x]
  | .regRead r => .request 0x10#8 (refBytes r)
  | .regWrite r value => .request 0x11#8 (refBytes r ++ [value])
  | .strobe r => .request 0x12#8 (refBytes r)
  | .fifoRead n => .request 0x13#8 [n]
  | .fifoWrite data => .request 0x14#8 (bytesWithLength data)
  | .patableRead n => .request 0x15#8 [n]
  | .patableWrite data => .request 0x16#8 (bytesWithLength data)
  | .freqEnc hz => .request 0x20#8 (wordBytes hz)
  | .freqDec f2 f1 f0 => .request 0x21#8 [f2, f1, f0]
  | .drateEnc baud => .request 0x22#8 (wordBytes baud)
  | .drateDec m e => .request 0x23#8 [m, fieldByte e]
  | .devEnc hz => .request 0x24#8 (wordBytes hz)
  | .devDec m e => .request 0x25#8 [fieldByte m, fieldByte e]
  | .chbwEnc hz => .request 0x26#8 (wordBytes hz)
  | .chbwDec m e => .request 0x27#8 [fieldByte m, fieldByte e]
  | .rssiDbm raw => .request 0x28#8 [raw]
  | .msDec v => .request 0x30#8 [v]
  | .msRead => .request 0x31#8 []
  | .msMatch target => .request 0x32#8 [fieldByte target]
  | .fifoDec v => .request 0x33#8 [v]
  | .fifoPoll d => .request 0x34#8 [dirByte d]
  | .stableStart d => .request 0x35#8 [dirByte d]
  | .stableStep d => .request 0x36#8 [dirByte d]
  | .crcDec lqi => .request 0x37#8 [lqi]
  | .rxOutcome ov lqi len => .request 0x38#8 [bitByte ov, lqi, len]
  | .txOutcome => .request 0x39#8 []
  | .txFrame addr payload => .request 0x3A#8 (addr :: bytesWithLength payload)
  | .rxFrame buf => .request 0x3B#8 (bytesWithLength buf)
  | .ufClear => .request 0x3C#8 []
  | .hdrConfigReadSingle a => .header (Machine.headerByte true false a)
  | .hdrConfigWriteSingle a => .header (Machine.headerByte false false a)
  | .hdrConfigReadBurst a => .header (Machine.headerByte true true a)
  | .hdrConfigWriteBurst a => .header (Machine.headerByte false true a)
  | .hdrStatusRead a => .header (Machine.headerByte true true a)
  | .hdrStrobe r a => .header (Machine.headerByte r false a)
  | .hdrPatable r b => .header (Machine.headerByte r b 0x3E#6)
  | .hdrRxfifo b => .header (Machine.headerByte true b 0x3F#6)
  | .hdrTxfifo b => .header (Machine.headerByte false b 0x3F#6)
  | .hdrReserved2F r b => .header (Machine.headerByte r b 0x2F#6)
  | .hdrReserved37 r => .header (Machine.headerByte r false 0x37#6)
  | .hdrReservedWriteBurstStatus a => .header (Machine.headerByte false true a)

/-! ### The words of the opcode table -/

/-- The longest request in bytes: `TX_FRAME` with 255 payload bytes. -/
def maxRequestBytes : Nat := 258

/-- The bytes of a table word: the bits of `w` below `nbits`, the least significant byte first, then zeros. -/
def tableBytes (nbits w : Nat) : List Byte :=
  (List.range maxRequestBytes).map fun k => BitVec.ofNat 8 ((w % 2 ^ nbits) >>> (8 * k))

/-- The port item of a table word. A word whose first byte is an opcode of R80 is that request, its operands the bytes
that follow, as many as the row has; any other first byte is a wire header. Where the table's two formats overlap, the
request is read (assumption log 4). -/
def tableInput (nbits w : Nat) : PortInput :=
  match tableBytes nbits w with
  | [] => .header 0x00#8
  | op :: xs =>
    match decodePrefix op xs with
    | .ok (_, rest) => .request op (xs.take (xs.length - rest.length))
    | .error .reservedOpcode => .header op
    | .error _ => .request op xs

/-- The instruction the decoder reads from a table word. -/
def decodeTableWord (nbits w : Nat) : Option Instr :=
  match decodeInput (tableInput nbits w) with
  | .run i => some i
  | _ => none

end Sys2Proof
end

