-- ==== Sys2Proof/Machine/State.lean ====
section
/-! DEFINITION. The state: the block's registers (10_state.md R20 to R22; R23: there are no others), its three ports
(R24 to R27) and the record of the run (70_reset_and_hazards.md R256); the error and response types; the stops. -/

namespace Sys2Proof.Machine

/-- The result fields of a successful response, one form for each result column of 30_encoding.md R80. -/
inductive Result where
  /-- No result fields. -/
  | none
  /-- `HDR_ENC`: h. -/
  | header (h : Byte)
  /-- `HDR_DEC`: rw, b, a, cls. -/
  | headerFields (rw b : Bool) (a : BitVec 6) (cls : HdrClass)
  /-- `STATUS_DEC`: hi, lo, rdy_n, state, fifo. -/
  | statusFields (hi lo : BitVec 4) (rdyN : Bool) (state : BitVec 3) (fifo : BitVec 4)
  /-- `STATUS_GET`: valid, s. -/
  | status (valid : Bool) (s : Byte)
  /-- `FIELD_GET`: x; `FIELD_SET`: v2. -/
  | field (x : Byte)
  /-- `REG_READ`: value. -/
  | value (v : Byte)
  /-- `FIFO_READ`, `PATABLE_READ`: data. -/
  | data (bytes : List Byte)
  /-- `FREQ_ENC`: freq, f2, f1, f0. -/
  | freq (freq : BitVec 22) (f2 f1 f0 : Byte)
  /-- The `*_DEC` converters: the exact rational num/den, not reduced (R77 `rat`). -/
  | rat (num den : BitVec 64)
  /-- `DRATE_ENC`: m, e. -/
  | drate (m : BitVec 8) (e : BitVec 4)
  /-- `DEV_ENC`: m, e. -/
  | dev (m e : BitVec 3)
  /-- `CHBW_ENC`: m, e. -/
  | chbw (m e : BitVec 2)
  /-- `RSSI_DBM`: dbm2, a signed 16-bit number in two's complement. -/
  | rssi (dbm2 : BitVec 16)
  /-- `MS_DEC`, `MS_READ`: st. -/
  | mstate (st : MarcState)
  /-- `MS_MATCH`: match, st. -/
  | matched (hit : Bool) (st : MarcState)
  /-- `FIFO_DEC`, `FIFO_POLL`: count, fault. -/
  | fifoCount (count : BitVec 7) (fault : Bool)
  /-- `STABLE_STEP`: done, count. -/
  | stable (done : Bool) (count : BitVec 7)
  /-- `CRC_DEC`: crc_fail, lqi_est. -/
  | crc (fail : Bool) (est : BitVec 7)
  /-- `RX_OUTCOME`: len. -/
  | length (len : Byte)
  /-- `TX_FRAME`: frame. -/
  | frame (bytes : List Byte)
  /-- `RX_FRAME`: len, addr. -/
  | framePrefix (len addr : Byte)
  deriving DecidableEq, Repr

/-- The forms of `IllegalRequest` (60_exceptions.md R212). -/
inductive Illegal where
  /-- `0x00xx`: reserved opcode xx. -/
  | reservedOpcode (op : Byte)
  /-- `0x01tt`: a `ref` of tag tt that this opcode does not take. -/
  | wrongTag (tag : BitVec 3)
  /-- `0x02ow`: bad bit field. -/
  | badField (off : BitVec 3) (w : BitVec 4)
  /-- `0x03xx`: an insert value that does not fit the field. -/
  | fieldOverflow (x : Byte)
  /-- `0x06cc`: unknown machine-state target. -/
  | unknownTarget (code : BitVec 5)
  /-- `0x0800 | (tag << 6) | addr`: a `ref` not in `REGMAP`. -/
  | notInRegMap (r : Ref)
  deriving DecidableEq, Repr

/-- The errors a request can raise, each with what it records (R211, R212). -/
inductive Err where
  | txUnderflow (count : BitVec 7)
  | rxOverflow (count : BitVec 7)
  | crcMismatch (lqi : Byte)
  | invalidState (code : BitVec 5)
  | userInputError (n : Nat)
  | transport (e : Nat)
  | outOfRange (op : Byte)
  | illegalRequest (form : Illegal)
  deriving DecidableEq, Repr

/-- A response (10_state.md R26): `rsp_err`, `rsp_info`, `rsp_data`, and the transport's full error value, which
R212 passes out of band. An error response has no data (assumption log 11). -/
structure Response where
  err       : BitVec 4
  info      : BitVec 16
  data      : Option Result
  transport : Option Nat
  deriving DecidableEq, Repr

/-- What one `Xfer` yields (10_state.md R24): the echoed status byte and the bytes of the data slots, or an error. -/
inductive XferResult where
  | received (status : Byte) (data : List Byte)
  | failed (e : Nat)
  deriving DecidableEq, Repr

/-- One entry of the wire record (R256): the bytes sent, and what came back. The result is none for the part of an
abandoned request's frame that was shifted out before `rst` (R28; assumption log 8). -/
structure WireRecord where
  sent   : List Byte
  result : Option XferResult
  deriving DecidableEq, Repr

/-- The state of the block, its ports and the record of the run. -/
structure State where
  /-- `STATUS_LAST` (R20). -/
  statusLast  : Byte
  /-- `STATUS_VALID` (R20). -/
  statusValid : Bool
  /-- `STB_PREV_RX` (R21). -/
  stbPrevRx   : BitVec 7
  /-- `STB_VALID_RX` (R21). -/
  stbValidRx  : Bool
  /-- `STB_PREV_TX` (R21). -/
  stbPrevTx   : BitVec 7
  /-- `STB_VALID_TX` (R21). -/
  stbValidTx  : Bool
  /-- `UF_SEEN` (R22). -/
  ufSeen      : Bool
  /-- The request port: what the host has still to present, oldest first (R25, R27; assumption log 2). -/
  port        : List PortInput
  /-- The transport port: the answers the transport has still to give, oldest first (R24; assumption log 5). -/
  answers     : List Answer
  /-- The number of transactions so far: the model's own counter, the argument of the free values (assumption log 5). -/
  tick        : Nat
  /-- Every `Xfer`, oldest first (R256). -/
  wire        : List WireRecord
  /-- Every response, oldest first (R26, R256). -/
  responses   : List Response
  deriving DecidableEq, Repr

/-- The state right after reset (R230, power-on is a reset): the valid bits and `UF_SEEN` are 0, nothing is in
progress and nothing is pending. `STATUS_LAST` and `STB_PREV_*` "hold no value after reset"; the model puts 0 there
(DESIGN CHOICE, unsafe, assumption log 7). `tick` starts at 0 (DESIGN CHOICE, assumption log 5). -/
def State.reset : State where
  statusLast  := 0x00#8
  statusValid := false
  stbPrevRx   := 0#7
  stbValidRx  := false
  stbPrevTx   := 0#7
  stbValidTx  := false
  ufSeen      := false
  port        := []
  answers     := []
  tick        := 0
  wire        := []
  responses   := []

/-- Why the machine stops. -/
inductive Fault where
  /-- Raised by `step` when the request port holds nothing: "it ends when the host issues no further request" (R256).
  Safe: the machine stops where the block would wait for the host (assumption log 2). -/
  | noRequest
  deriving DecidableEq, Repr

/-- Why the machine gives no meaning. -/
inductive Refusal where
  /-- Raised by an arm of `exec` whose instruction has no meaning yet. Safe. No arm raises it. -/
  | notModelled (mnemonic : String)
  /-- Raised by `step` when the bytes put on the port are not the typed fields of a request, which the port of R25
  cannot carry (R76, R78). Safe (assumption log 1). -/
  | malformedRequest (why : DecodeError)
  deriving DecidableEq, Repr

end Sys2Proof.Machine
end

