-- ==== Sys2Proof/Machine/Ops.lean ====
section
/-! DEFINITION. The named operations of the machine: error codes and details (60_exceptions.md R211, R212), responding
and raising (R210), the transport port's `Xfer` (10_state.md R24), the status capture (41_access_protocol.md R102), the
bus transaction every bus request is (R103), and reset (70_reset_and_hazards.md R230). -/

namespace Sys2Proof.Machine

/-! ### Error codes and details -/

/-- `rsp_err` (R211). -/
def Err.code (e : Err) : BitVec 4 :=
  match e with
  | .txUnderflow _ => 1
  | .rxOverflow _ => 2
  | .crcMismatch _ => 3
  | .invalidState _ => 4
  | .userInputError _ => 5
  | .transport _ => 6
  | .outOfRange _ => 7
  | .illegalRequest _ => 8

/-- The `IllegalRequest` forms of `rsp_info` (R212). -/
def Illegal.info (f : Illegal) : BitVec 16 :=
  match f with
  | .reservedOpcode op => op.setWidth 16
  | .wrongTag tag => 0x0100#16 ||| tag.setWidth 16
  | .badField off w => 0x0200#16 ||| (off.setWidth 16 <<< 4) ||| w.setWidth 16
  | .fieldOverflow x => 0x0300#16 ||| x.setWidth 16
  | .unknownTarget code => 0x0600#16 ||| code.setWidth 16
  | .notInRegMap r => 0x0800#16 ||| (r.tag.setWidth 16 <<< 6) ||| r.addr.setWidth 16

/-- `rsp_info` (R212). -/
def Err.info (e : Err) : BitVec 16 :=
  match e with
  | .txUnderflow count => count.setWidth 16
  | .rxOverflow count => count.setWidth 16
  | .crcMismatch lqi => lqi.setWidth 16
  | .invalidState code => code.setWidth 16
  | .userInputError n => BitVec.ofNat 16 n
  | .transport e => BitVec.ofNat 16 e
  | .outOfRange op => op.setWidth 16
  | .illegalRequest form => form.info

/-- The out-of-band field: the transport's error value, unchanged (R212). -/
def Err.outOfBand (e : Err) : Option Nat :=
  match e with
  | .transport v => some v
  | .txUnderflow _ => none
  | .rxOverflow _ => none
  | .crcMismatch _ => none
  | .invalidState _ => none
  | .userInputError _ => none
  | .outOfRange _ => none
  | .illegalRequest _ => none

/-! ### Responses -/

/-- The response of a request that succeeds: OK, detail 0, the result fields (R26, R212). -/
def Response.ok (d : Result) : Response := ⟨0, 0, some d, none⟩

/-- The response of a request that raises `e`: no result data (R26, R210). -/
def Response.error (e : Err) : Response := ⟨e.code, e.info, none, e.outOfBand⟩

/-- `respond(fields)` (00_scope.md R11): the response is delivered; the block is ready for the next request. -/
def State.respond (s : State) (d : Result) : State := { s with responses := s.responses ++ [.ok d] }

/-- `raise E(info)` (R210), the one way any request takes an error: the error response is delivered; writes made before
stay, nothing else is written, no state is saved, no mode changes and no vector is taken. There is no return from it:
"the next request is simply the next request" (R214). -/
def State.raise (s : State) (e : Err) : State := { s with responses := s.responses ++ [.error e] }

/-! ### The transport port -/

/-- The sequence one transaction sends: a header byte and the bytes after it (R74); so it is never empty (R102). -/
structure Frame where
  header : Byte
  body   : List Byte
  deriving DecidableEq, Repr

/-- The bytes sent, header first. -/
def Frame.bytes (m : Frame) : List Byte := m.header :: m.body

/-- `n` received bytes of transaction `t`, from place `i` on: the bytes given, and a free value for each byte the
answer does not list. The length is `n` whatever is given: "it has the same length as the sent sequence" (R50). -/
def receivedBytes (t i n : Nat) (given : List Byte) : List Byte :=
  match n, given with
  | 0, _ => []
  | n + 1, [] => Config.chipByte t i :: receivedBytes t (i + 1) n []
  | n + 1, x :: rest => x :: receivedBytes t (i + 1) n rest

/-- The transport's answer to the next transaction: the next one listed, or a free one (R50). -/
def State.nextAnswer (s : State) : Answer :=
  match s.answers with
  | a :: _ => a
  | [] => Config.chipAnswer s.tick

/-- What the next transaction yields when its frame has `n` bytes after the header (R24). -/
def State.exchange (s : State) (n : Nat) : XferResult :=
  match s.nextAnswer with
  | .fail e => .failed e
  | .reply bytes => .received (bytes.headD (Config.chipByte s.tick 0)) (receivedBytes s.tick 1 n bytes.tail)

/-- The transaction is over: its answer is used up and it stands in the wire record (R256). No block register
changes. -/
def State.record (s : State) (m : Frame) (r : XferResult) : State :=
  { s with answers := s.answers.tail, tick := s.tick + 1, wire := s.wire ++ [⟨m.bytes, some r⟩] }

/-- Status capture: `STATUS_LAST <- r[0]; STATUS_VALID <- 1` (R102). -/
def State.capture (s : State) (status : Byte) : State := { s with statusLast := status, statusValid := true }

/-- One bus transaction (R103): a single `Xfer`; a transport error is raised and writes no block register; otherwise
the status is captured, before anything else, and `k` goes on with the bytes of the data slots. -/
def State.transact (s : State) (m : Frame) (k : List Byte → State → State) : State :=
  match s.exchange m.body.length with
  | .failed e => (s.record m (.failed e)).raise (.transport e)
  | .received status data => k data ((s.record m (.received status data)).capture status)

/-- A bus request: the refusals that need no bus come first and touch nothing (R213 steps 2 and 3); a frame that is
admitted is one transaction. -/
def State.busRequest (s : State) (admitted : Except Err Frame) (k : List Byte → State → State) : State :=
  match admitted with
  | .error e => s.raise e
  | .ok m => s.transact m k

/-! ### Reset -/

/-- The block registers at their reset values (R28, R230); the ports, the configuration and the record of the run are
not touched: reset "performs no bus transaction" (R231). -/
def State.resetRegisters (s : State) : State :=
  { s with
    statusLast := State.reset.statusLast, statusValid := State.reset.statusValid
    stbPrevRx := State.reset.stbPrevRx, stbValidRx := State.reset.stbValidRx
    stbPrevTx := State.reset.stbPrevTx, stbValidTx := State.reset.stbValidTx
    ufSeen := State.reset.ufSeen }

/-- Reset while a request is in progress (R28): no response. Of the frame it would send, an unknown number of bytes
has been shifted out (U14; a free value, assumption log 8); a request without a frame has sent nothing. -/
def State.resetDuring (s : State) (frame : Option Frame) : State :=
  match frame with
  | none => s.resetRegisters
  | some m =>
    { s.resetRegisters with
      tick := s.tick + 1
      wire := s.wire ++ [⟨m.bytes.take (Config.abandonedBytes s.tick), none⟩] }

/-- The item at the front of the port is taken. -/
def State.setPort (s : State) (rest : List PortInput) : State := { s with port := rest }

end Sys2Proof.Machine
end

