-- ==== Sys2Proof/Machine/Flags.lean ====
section
/-! DEFINITION. The flags (10_state.md R46): the FIFO fault flag and count, the CRC flag, `UF_SEEN`, and the stability
monitor's registers (R21, R22). -/

namespace Sys2Proof.Machine

/-- Bits 6:0 of an RXBYTES or TXBYTES byte: the count (R38). -/
def fifoCountOf (v : Byte) : BitVec 7 := v.extractLsb' 0 7

/-- Bit 7 of an RXBYTES or TXBYTES byte: overflow or underflow (R38). -/
def fifoFaultOf (v : Byte) : Bool := v.getLsbD 7

/-- The CRC failed: LQI bit 7 = `CRC_FAIL_LEVEL` (R39, R181). -/
def crcFailed (lqi : Byte) : Bool := lqi.getLsbD 7 == Config.crcFailLevel

/-- Bits 6:0 of LQI: the link-quality estimate (R39). -/
def lqiEstimate (lqi : Byte) : BitVec 7 := lqi.extractLsb' 0 7

/-- The state-code field of a MARCSTATE byte, bits 4:0 (R37). -/
def marcCodeOf (v : Byte) : BitVec 5 := v.extractLsb' 0 5

/-- `UF_SEEN <- v` (R22). -/
def State.setUfSeen (s : State) (v : Bool) : State := { s with ufSeen := v }

/-- `UF_SEEN <- 1` where a TX byte-count read showed the fault flag; no change otherwise (R22, R177, R180). -/
def State.noteUnderflow (s : State) (d : Dir) (fault : Bool) : State :=
  match d with
  | .rx => s
  | .tx => if fault then s.setUfSeen true else s

/-- `STB_VALID_d` (R21). -/
def State.stbValid (s : State) (d : Dir) : Bool :=
  match d with
  | .rx => s.stbValidRx
  | .tx => s.stbValidTx

/-- `STB_PREV_d` (R21). -/
def State.stbPrev (s : State) (d : Dir) : BitVec 7 :=
  match d with
  | .rx => s.stbPrevRx
  | .tx => s.stbPrevTx

/-- `STB_VALID_d <- 0` (R179, R180). -/
def State.clearStb (s : State) (d : Dir) : State :=
  match d with
  | .rx => { s with stbValidRx := false }
  | .tx => { s with stbValidTx := false }

/-- `STB_PREV_d <- c; STB_VALID_d <- 1` (R180). -/
def State.setStb (s : State) (d : Dir) (c : BitVec 7) : State :=
  match d with
  | .rx => { s with stbPrevRx := c, stbValidRx := true }
  | .tx => { s with stbPrevTx := c, stbValidTx := true }

end Sys2Proof.Machine
end

