-- ==== Sys2Proof/Machine/Operands.lean ====
section
/-! DEFINITION. The operand checks that need no bus (60_exceptions.md R213 steps 2 and 3), and the frames of the bus
requests (30_encoding.md R74): for each bus request, the refusal it meets before the bus or the frame it sends. -/

namespace Sys2Proof.Machine

/-! ### Checks -/

/-- The checks of a `ref` operand: first that it is in `REGMAP` (R77, C9), then that its tag is one the opcode takes
(R104 to R106). -/
def refError (allowed : List Tag) (r : Ref) : Option Err :=
  if !inRegMap r then some (.illegalRequest (.notInRegMap r))
  else if !(allowed.any fun t => t.code = r.tag) then some (.illegalRequest (.wrongTag r.tag))
  else none

/-- The check of a bit field's offset and width: not empty, not past bit 7 (R113, R114). -/
def fieldError (off : BitVec 3) (w : BitVec 4) : Option Err :=
  if w.toNat = 0 ∨ off.toNat + w.toNat > 8 then some (.illegalRequest (.badField off w)) else none

/-- The check of an insert value: it fits in w bits (R114). -/
def insertError (w : BitVec 4) (x : Byte) : Option Err :=
  if x.toNat ≥ 2 ^ w.toNat then some (.illegalRequest (.fieldOverflow x)) else none

/-- The capacity check of a transfer of `n` bytes (R108). -/
def capacityError (cap n : Nat) : Option Err := if n > cap then some (.userInputError n) else none

/-- The check of an awaited machine state: it is one of `MARC_CODES` (R173). -/
def targetError (target : BitVec 5) : Option Err :=
  if (marcOfCode target).isNone then some (.illegalRequest (.unknownTarget target)) else none

/-- The frame, unless a check refuses the request. -/
def admitUnless (e : Option Err) (m : Frame) : Except Err Frame :=
  match e with
  | some e => .error e
  | none => .ok m

/-! ### Frames -/

/-- A read of a status register: `{0xC0 | A, DUMMY_BYTE}` (R74, with bit 6 = `STATUS_READ_BURST`). -/
def statusReadFrame (a : BitVec 6) : Frame := ⟨headerByte true Config.statusReadBurst a, [Config.dummyByte]⟩

/-- The address of MARCSTATE (R33). -/
def marcStateAddr : BitVec 6 := 0x35

/-- The byte-count register of a direction: RXBYTES or TXBYTES (R176). -/
def fifoBytesAddr (d : Dir) : BitVec 6 :=
  match d with
  | .rx => 0x3B
  | .tx => 0x3A

/-- `REG_READ`: a configuration register is read single, a status register with `STATUS_READ_BURST` (R104). -/
def regReadFrame (r : Ref) : Except Err Frame :=
  admitUnless (refError [.config, .status] r)
    ⟨headerByte true (if r.tag = Tag.status.code then Config.statusReadBurst else false) r.addr, [Config.dummyByte]⟩

/-- `REG_WRITE`: `{A, value}` (R105). -/
def regWriteFrame (r : Ref) (value : Byte) : Except Err Frame :=
  admitUnless (refError [.config] r) ⟨headerByte false false r.addr, [value]⟩

/-- `STROBE`: `{A}` (R106). -/
def strobeFrame (r : Ref) : Except Err Frame := admitUnless (refError [.strobe] r) ⟨headerByte false false r.addr, []⟩

/-- A burst read of `n` bytes at a space: the header, then `n` dummy bytes (R107, R110). -/
def burstReadFrame (cap : Nat) (a : BitVec 6) (n : BitVec 8) : Except Err Frame :=
  admitUnless (capacityError cap n.toNat) ⟨headerByte true true a, List.replicate n.toNat Config.dummyByte⟩

/-- A burst write at a space: the header, then the data unchanged and in order (R109, R111). -/
def burstWriteFrame (cap : Nat) (a : BitVec 6) (data : List Byte) : Except Err Frame :=
  admitUnless (capacityError cap data.length) ⟨headerByte false true a, data⟩

/-- The address of the FIFO and of the amplifier table (R34). -/
def fifoAddr : BitVec 6 := 0x3F
def patableAddr : BitVec 6 := 0x3E

def fifoReadFrame (n : BitVec 8) : Except Err Frame := burstReadFrame Config.fifoCap fifoAddr n
def fifoWriteFrame (data : List Byte) : Except Err Frame := burstWriteFrame Config.fifoCap fifoAddr data
def patableReadFrame (n : BitVec 8) : Except Err Frame := burstReadFrame Config.patableCap patableAddr n
def patableWriteFrame (data : List Byte) : Except Err Frame := burstWriteFrame Config.patableCap patableAddr data

/-- `MS_READ` (R172). -/
def msReadFrame : Except Err Frame := .ok (statusReadFrame marcStateAddr)

/-- `MS_MATCH`: the target is checked before the bus (R173). -/
def msMatchFrame (target : BitVec 5) : Except Err Frame := admitUnless (targetError target) (statusReadFrame marcStateAddr)

/-- `FIFO_POLL` and `STABLE_STEP` (R177, R180). -/
def fifoCountFrame (d : Dir) : Except Err Frame := .ok (statusReadFrame (fifoBytesAddr d))

/-- The frame an instruction sends if it reaches the bus; none for a request that does not use the bus or is refused
before it (R80 column "bus", R103). -/
def frameOf (i : Instr) : Option Frame :=
  match i with
  | .regRead r => (regReadFrame r).toOption
  | .regWrite r value => (regWriteFrame r value).toOption
  | .strobe r => (strobeFrame r).toOption
  | .fifoRead n => (fifoReadFrame n).toOption
  | .fifoWrite data => (fifoWriteFrame data).toOption
  | .patableRead n => (patableReadFrame n).toOption
  | .patableWrite data => (patableWriteFrame data).toOption
  | .msRead => msReadFrame.toOption
  | .msMatch target => (msMatchFrame target).toOption
  | .fifoPoll d => (fifoCountFrame d).toOption
  | .stableStep d => (fifoCountFrame d).toOption
  | .hdrEnc _ _ _ => none
  | .hdrDec _ => none
  | .statusDec _ => none
  | .statusGet => none
  | .fieldGet _ _ _ => none
  | .fieldSet _ _ _ _ => none
  | .freqEnc _ => none
  | .freqDec _ _ _ => none
  | .drateEnc _ => none
  | .drateDec _ _ => none
  | .devEnc _ => none
  | .devDec _ _ => none
  | .chbwEnc _ => none
  | .chbwDec _ _ => none
  | .rssiDbm _ => none
  | .msDec _ => none
  | .fifoDec _ => none
  | .stableStart _ => none
  | .crcDec _ => none
  | .rxOutcome _ _ _ => none
  | .txOutcome => none
  | .txFrame _ _ => none
  | .rxFrame _ => none
  | .ufClear => none
  | .hdrConfigReadSingle _ => none
  | .hdrConfigWriteSingle _ => none
  | .hdrConfigReadBurst _ => none
  | .hdrConfigWriteBurst _ => none
  | .hdrStatusRead _ => none
  | .hdrStrobe _ _ => none
  | .hdrPatable _ _ => none
  | .hdrRxfifo _ => none
  | .hdrTxfifo _ => none
  | .hdrReserved2F _ _ => none
  | .hdrReserved37 _ => none
  | .hdrReservedWriteBurstStatus _ => none

end Sys2Proof.Machine
end

