-- ==== Sys2Proof/Machine/Access.lean ====
section
/-! DEFINITION. The meanings of 41_access_protocol.md: header codec, status, bit-field multiplexer, register, strobe,
FIFO and amplifier-table transactions; and of the wire-header rows of the opcode table. -/

namespace Sys2Proof.Machine

/-- The outcome of a step of this machine. -/
abbrev Out := Host.Outcome State Fault Refusal

/-! ### Header codec and status -/

/-- The header decoder (R101): the fields of the header byte and its class (R72). -/
def decodedHeader (h : Byte) : Result := .headerFields (headerRw h) (headerB h) (headerAddr h) (headerClass h)

/-- `HDR_ENC` (R100). -/
def execHdrEnc (rw b : Bool) (a : BitVec 6) (s : State) : Out := .next (s.respond (.header (headerByte rw b a)))

/-- `HDR_DEC` (R101). -/
def execHdrDec (h : Byte) (s : State) : Out := .next (s.respond (decodedHeader h))

/-- `STATUS_DEC` (R116). -/
def execStatusDec (x : Byte) (s : State) : Out :=
  .next (s.respond (.statusFields (x.extractLsb' 4 4) (x.extractLsb' 0 4) (x.getLsbD 7) (x.extractLsb' 4 3)
    (x.extractLsb' 0 4)))

/-- `STATUS_GET` (R115): the retained byte, or 0x00 while there is none. -/
def execStatusGet (s : State) : Out :=
  .next (s.respond (.status s.statusValid (if s.statusValid then s.statusLast else 0x00#8)))

/-! ### Bit-field multiplexer -/

/-- `zext_8(v[off + w - 1 : off])` (R113). -/
def fieldExtract (v : Byte) (off : BitVec 3) (w : BitVec 4) : Byte :=
  (v >>> off.toNat) &&& BitVec.ofNat 8 (2 ^ w.toNat - 1)

/-- `mask := ((2^w - 1) << off)[7:0]` (R114). -/
def fieldMask (off : BitVec 3) (w : BitVec 4) : Byte := BitVec.ofNat 8 ((2 ^ w.toNat - 1) <<< off.toNat)

/-- `(v & ~mask) | ((x << off) & mask)` (R114). -/
def fieldInsert (v : Byte) (off : BitVec 3) (w : BitVec 4) (x : Byte) : Byte :=
  (v &&& ~~~ fieldMask off w) ||| ((x <<< off.toNat) &&& fieldMask off w)

/-- `FIELD_GET` (R113). -/
def execFieldGet (v : Byte) (off : BitVec 3) (w : BitVec 4) (s : State) : Out :=
  .next (match fieldError off w with
    | some e => s.raise e
    | none => s.respond (.field (fieldExtract v off w)))

/-- `FIELD_SET` (R114). -/
def execFieldSet (v : Byte) (off : BitVec 3) (w : BitVec 4) (x : Byte) (s : State) : Out :=
  .next (match fieldError off w with
    | some e => s.raise e
    | none =>
      match insertError w x with
      | some e => s.raise e
      | none => s.respond (.field (fieldInsert v off w x)))

/-! ### Transactions -/

/-- `REG_READ` (R104): the byte of the data slot, whatever the chip sent. -/
def execRegRead (r : Ref) (s : State) : Out :=
  .next (s.busRequest (regReadFrame r) fun data t => t.respond (.value (data.headD 0x00#8)))

/-- `REG_WRITE` (R105): the byte received in the data slot is ignored. -/
def execRegWrite (r : Ref) (value : Byte) (s : State) : Out :=
  .next (s.busRequest (regWriteFrame r value) fun _ t => t.respond .none)

/-- `STROBE` (R106). The chip's action is not modelled (R57). -/
def execStrobe (r : Ref) (s : State) : Out := .next (s.busRequest (strobeFrame r) fun _ t => t.respond .none)

/-- `FIFO_READ` (R107, R108). -/
def execFifoRead (n : BitVec 8) (s : State) : Out :=
  .next (s.busRequest (fifoReadFrame n) fun data t => t.respond (.data data))

/-- `FIFO_WRITE` (R109, R108). -/
def execFifoWrite (data : List Byte) (s : State) : Out :=
  .next (s.busRequest (fifoWriteFrame data) fun _ t => t.respond .none)

/-- `PATABLE_READ` (R110, R108). -/
def execPatableRead (n : BitVec 8) (s : State) : Out :=
  .next (s.busRequest (patableReadFrame n) fun data t => t.respond (.data data))

/-- `PATABLE_WRITE` (R111, R108). -/
def execPatableWrite (data : List Byte) (s : State) : Out :=
  .next (s.busRequest (patableWriteFrame data) fun _ t => t.respond .none)

/-! ### Wire-header rows

The rows of the table that describe the header byte (R70 to R73). The host has no move that drives the bus (R250), so
such a row is not a transaction: it is the header decoder taking this header (R72, R101; assumption log 4). The frames
that carry these headers are the bus requests' (R74). -/

/-- The header decoder takes the header `h`: no state is written, no error is raised, a reserved header included
(R73, R101). -/
def decodeHeaderRow (h : Byte) (s : State) : Out := .next (s.respond (decodedHeader h))

def execHdrConfigReadSingle (a : BitVec 6) (s : State) : Out := decodeHeaderRow (headerByte true false a) s
def execHdrConfigWriteSingle (a : BitVec 6) (s : State) : Out := decodeHeaderRow (headerByte false false a) s
def execHdrConfigReadBurst (a : BitVec 6) (s : State) : Out := decodeHeaderRow (headerByte true true a) s
def execHdrConfigWriteBurst (a : BitVec 6) (s : State) : Out := decodeHeaderRow (headerByte false true a) s
def execHdrStatusRead (a : BitVec 6) (s : State) : Out := decodeHeaderRow (headerByte true true a) s
def execHdrStrobe (r : Bool) (a : BitVec 6) (s : State) : Out := decodeHeaderRow (headerByte r false a) s
def execHdrPatable (r b : Bool) (s : State) : Out := decodeHeaderRow (headerByte r b 0x3E#6) s
def execHdrRxfifo (b : Bool) (s : State) : Out := decodeHeaderRow (headerByte true b 0x3F#6) s
def execHdrTxfifo (b : Bool) (s : State) : Out := decodeHeaderRow (headerByte false b 0x3F#6) s
def execHdrReserved2F (r b : Bool) (s : State) : Out := decodeHeaderRow (headerByte r b 0x2F#6) s
def execHdrReserved37 (r : Bool) (s : State) : Out := decodeHeaderRow (headerByte r false 0x37#6) s
def execHdrReservedWriteBurstStatus (a : BitVec 6) (s : State) : Out := decodeHeaderRow (headerByte false true a) s

end Sys2Proof.Machine
end

