-- ==== Sys2Proof/Machine/Converters.lean ====
section
/-! DEFINITION. The meanings of 42_unit_converters.md. Arithmetic is exact over the rationals (00_scope.md R10): a
rational is a pair of natural numbers, numerator and positive denominator, and only the roundings a rule names are
applied. No converter uses the bus or writes a block register. -/

namespace Sys2Proof.Machine

/-- `roundHalfUp(num / den)`: the integer n with n - 1/2 <= num/den < n + 1/2 (R10). -/
def roundHalfUp (num den : Nat) : Nat := (2 * num + den) / (2 * den)

/-- `max({ k in 0..n : base * 2^k <= num/den } ∪ {0})` (R143, R145). -/
def gridExponent (base num den n : Nat) : Nat :=
  match n with
  | 0 => 0
  | k + 1 => if base * 2 ^ (k + 1) * den ≤ num then k + 1 else gridExponent base num den k

/-- The nearest point (mantissa, exponent) of the grid (base + m) * 2^e, m below base and e at most eMax, to the
rational num/den: refused below base - 1/2 and from (2*base - 1/2) * 2^eMax on; a mantissa that rounds up to 2*base
carries to the next exponent (R143, R145). -/
def gridEncode (base eMax num den : Nat) : Option (Nat × Nat) :=
  if 2 * num < (2 * base - 1) * den ∨ (4 * base - 1) * 2 ^ eMax * den ≤ 2 * num then none
  else
    let e := gridExponent base num den eMax
    let n := roundHalfUp num (den * 2 ^ e)
    if n = 2 * base then some (0, e + 1) else some (n - base, e)

/-- A result pair of u64 (R77 `rat`). -/
def ratResult (num den : Nat) : Result := .rat (BitVec.ofNat 64 num) (BitVec.ofNat 64 den)

/-- The FREQ word before its range check: `roundHalfUp(hz * 2^16 / FXOSC)` (R141). -/
def freqWord (hz : BitVec 32) : Nat := roundHalfUp (hz.toNat * 2 ^ 16) Config.fxosc

/-- `FREQ_ENC` (R141, R140): the 22-bit word and its three bytes, most significant first (R41). -/
def execFreqEnc (hz : BitVec 32) (s : State) : Out :=
  .next (
    let freq := freqWord hz
    if freq ≥ 2 ^ Config.freqBits then s.raise (.outOfRange 0x20#8)
    else s.respond (.freq (BitVec.ofNat 22 freq) (BitVec.ofNat 8 (freq >>> 16)) (BitVec.ofNat 8 (freq >>> 8))
      (BitVec.ofNat 8 freq)))

/-- `FREQ_DEC` (R142): bits 7:6 of f2 are decoded as given. -/
def execFreqDec (f2 f1 f0 : Byte) (s : State) : Out :=
  .next (s.respond (ratResult ((f2 ++ f1 ++ f0).toNat * Config.fxosc) (2 ^ 16)))

/-- The data-rate grid point nearest to `baud` (R143): base 256, exponents 0 to 15, q = baud * 2^28 / FXOSC. -/
def drateGrid (baud : BitVec 32) : Option (Nat × Nat) :=
  gridEncode (2 ^ Config.drateMBits) (2 ^ Config.drateEBits - 1) (baud.toNat * 2 ^ 28) Config.fxosc

/-- `DRATE_ENC` (R143, R140). -/
def execDrateEnc (baud : BitVec 32) (s : State) : Out :=
  .next (match drateGrid baud with
    | none => s.raise (.outOfRange 0x22#8)
    | some (m, e) => s.respond (.drate (BitVec.ofNat 8 m) (BitVec.ofNat 4 e)))

/-- `DRATE_DEC` (R144). -/
def execDrateDec (m : BitVec 8) (e : BitVec 4) (s : State) : Out :=
  .next (s.respond (ratResult ((256 + m.toNat) * 2 ^ e.toNat * Config.fxosc) (2 ^ 28)))

/-- The deviation grid point nearest to `hz` (R145): base 8, exponents 0 to 7, q = hz * 2^17 / FXOSC. -/
def devGrid (hz : BitVec 32) : Option (Nat × Nat) :=
  gridEncode (2 ^ Config.devMBits) (2 ^ Config.devEBits - 1) (hz.toNat * 2 ^ 17) Config.fxosc

/-- `DEV_ENC` (R145, R140). -/
def execDevEnc (hz : BitVec 32) (s : State) : Out :=
  .next (match devGrid hz with
    | none => s.raise (.outOfRange 0x24#8)
    | some (m, e) => s.respond (.dev (BitVec.ofNat 3 m) (BitVec.ofNat 3 e)))

/-- `DEV_DEC` (R146). -/
def execDevDec (m e : BitVec 3) (s : State) : Out :=
  .next (s.respond (ratResult ((8 + m.toNat) * 2 ^ e.toNat * Config.fxosc) (2 ^ 17)))

/-- The bandwidth settings (m, e) in the order of the index k = 4e + m, strictly narrower with k (R147, R149). -/
def chbwSettings : List (BitVec 2 × BitVec 2) :=
  [(0, 0), (1, 0), (2, 0), (3, 0), (0, 1), (1, 1), (2, 1), (3, 1),
   (0, 2), (1, 2), (2, 2), (3, 2), (0, 3), (1, 3), (2, 3), (3, 3)]

/-- The denominator of a setting's bandwidth FXOSC / (8 * (4 + m) * 2^e) (R148). -/
def chbwDivisor (m e : BitVec 2) : Nat := 8 * (4 + m.toNat) * 2 ^ e.toNat

/-- The search of R147: the last setting whose bandwidth is at least `hz`. -/
def chbwSearch (hz : Nat) (best : BitVec 2 × BitVec 2) (settings : List (BitVec 2 × BitVec 2)) : BitVec 2 × BitVec 2 :=
  match settings with
  | [] => best
  | (m, e) :: rest => chbwSearch hz (if Config.fxosc ≥ hz * chbwDivisor m e then (m, e) else best) rest

/-- `CHBW_ENC` (R147, R140). -/
def execChbwEnc (hz : BitVec 32) (s : State) : Out :=
  .next (
    if 32 * hz.toNat > Config.fxosc then s.raise (.outOfRange 0x26#8)
    else
      let best := chbwSearch hz.toNat (0, 0) chbwSettings
      s.respond (.chbw best.1 best.2))

/-- `CHBW_DEC` (R148). -/
def execChbwDec (m e : BitVec 2) (s : State) : Out := .next (s.respond (ratResult Config.fxosc (chbwDivisor m e)))

/-- `sext_16(raw) - 2 * RSSI_OFFSET` (R153), for any offset. -/
def rssiDbm2 (offset : BitVec 8) (raw : Byte) : BitVec 16 := raw.signExtend 16 - 2#16 * offset.setWidth 16

/-- `RSSI_DBM` (R153). -/
def execRssiDbm (raw : Byte) (s : State) : Out := .next (s.respond (.rssi (rssiDbm2 Config.rssiOffset raw)))

end Sys2Proof.Machine
end

