-- ==== Sys2Proof/Machine/Monitor.lean ====
section
/-! DEFINITION. The meanings of 43_status_monitor.md: machine-state decoder, FIFO counts, stability monitor, CRC and
outcome decoders, packet frames. -/

namespace Sys2Proof.Machine

/-! ### Machine state -/

/-- Decoding a MARCSTATE byte (R171): an unknown code raises `InvalidState`, a known one goes on with `k`. -/
def State.decodeMarc (s : State) (v : Byte) (k : MarcState → State → State) : State :=
  match marcOfCode (marcCodeOf v) with
  | none => s.raise (.invalidState (marcCodeOf v))
  | some st => k st s

/-- `MS_DEC` (R171). -/
def execMsDec (v : Byte) (s : State) : Out := .next (s.decodeMarc v fun st t => t.respond (.mstate st))

/-- `MS_READ` (R172): the status is captured before any `InvalidState`. -/
def execMsRead (s : State) : Out :=
  .next (s.busRequest msReadFrame fun data t =>
    t.decodeMarc (data.headD 0x00#8) fun st u => u.respond (.mstate st))

/-- `MS_MATCH` (R173). -/
def execMsMatch (target : BitVec 5) (s : State) : Out :=
  .next (s.busRequest (msMatchFrame target) fun data t =>
    t.decodeMarc (data.headD 0x00#8) fun st u => u.respond (.matched (st.code = target) st))

/-! ### FIFO byte counts -/

/-- `FIFO_DEC` (R175). -/
def execFifoDec (v : Byte) (s : State) : Out := .next (s.respond (.fifoCount (fifoCountOf v) (fifoFaultOf v)))

/-- One sample of a byte-count register (R177, R180): `k` goes on with the count and the fault flag. -/
def State.sampleFifo (s : State) (d : Dir) (k : BitVec 7 → Bool → State → State) : State :=
  s.busRequest (fifoCountFrame d) fun data t => k (fifoCountOf (data.headD 0x00#8)) (fifoFaultOf (data.headD 0x00#8)) t

/-- `FIFO_POLL` (R177): the fault is data; a TX fault sets `UF_SEEN`. -/
def execFifoPoll (d : Dir) (s : State) : Out :=
  .next (s.sampleFifo d fun c f t => (t.noteUnderflow d f).respond (.fifoCount c f))

/-! ### Stability monitor -/

/-- The error a fault raises in a stability wait (R180). -/
def faultError (d : Dir) (c : BitVec 7) : Err :=
  match d with
  | .rx => .rxOverflow c
  | .tx => .txUnderflow c

/-- `STABLE_START` (R179). -/
def execStableStart (d : Dir) (s : State) : Out := .next ((s.clearStb d).respond .none)

/-- What a sample does to a stability wait (R178, R180): the fault first, then the comparison with the previous
sample. -/
def State.judgeSample (s : State) (d : Dir) (c : BitVec 7) (f : Bool) : State :=
  if f then ((s.noteUnderflow d f).clearStb d).raise (faultError d c)
  else if c ≠ 0 ∧ s.stbValid d = true ∧ s.stbPrev d = c then (s.clearStb d).respond (.stable true c)
  else (s.setStb d c).respond (.stable false c)

/-- `STABLE_STEP` (R180). -/
def execStableStep (d : Dir) (s : State) : Out := .next (s.sampleFifo d fun c f t => t.judgeSample d c f)

/-! ### CRC and outcomes -/

/-- `CRC_DEC` (R181). -/
def execCrcDec (lqi : Byte) (s : State) : Out := .next (s.respond (.crc (crcFailed lqi) (lqiEstimate lqi)))

/-- `RX_OUTCOME` (R182): overflow before CRC. -/
def execRxOutcome (ov : Bool) (lqi len : Byte) (s : State) : Out :=
  .next (
    if ov then s.raise (.rxOverflow 0)
    else if crcFailed lqi then s.raise (.crcMismatch lqi)
    else s.respond (.length len))

/-- `TX_OUTCOME` (R186): `UF_SEEN` is cleared before the raise. -/
def execTxOutcome (s : State) : Out :=
  .next (if s.ufSeen then (s.setUfSeen false).raise (.txUnderflow 0) else (s.setUfSeen false).respond .none)

/-- `UF_CLEAR` (R187). -/
def execUfClear (s : State) : Out := .next ((s.setUfSeen false).respond .none)

/-! ### Packet frames -/

/-- `TX_FRAME` (R183, R185): the payload's length, the address, the payload; n + 2 bytes must fit one FIFO transfer. -/
def execTxFrame (addr : Byte) (payload : List Byte) (s : State) : Out :=
  .next (
    if payload.length + 2 > Config.fifoCap then s.raise (.userInputError (payload.length + 2))
    else s.respond (.frame (BitVec.ofNat 8 payload.length :: addr :: payload)))

/-- `RX_FRAME` (R184): bytes 0 and 1 of the buffer; neither is checked. -/
def execRxFrame (buf : List Byte) (s : State) : Out :=
  .next (
    if buf.length > Config.fifoCap then s.raise (.userInputError buf.length)
    else
      match buf with
      | len :: addr :: _ => s.respond (.framePrefix len addr)
      | _ => s.raise (.userInputError buf.length))

end Sys2Proof.Machine
end

