-- ==== Sys2Proof/Machine/Dispatch.lean ====
section
/-! DEFINITION. The dispatcher: one arm for each constructor of `Instr`, each one direct call of its meaning. -/

namespace Sys2Proof.Machine

/-- What an instruction does, the request being already taken from the port. -/
def exec (i : Instr) (s : State) : Host.Outcome State Fault Refusal :=
  match i with
  | .hdrEnc rw b a => Sys2Proof.Machine.execHdrEnc rw b a s
  | .hdrDec h => Sys2Proof.Machine.execHdrDec h s
  | .statusDec x0 => Sys2Proof.Machine.execStatusDec x0 s
  | .statusGet => Sys2Proof.Machine.execStatusGet s
  | .fieldGet v off w => Sys2Proof.Machine.execFieldGet v off w s
  | .fieldSet v off w x => Sys2Proof.Machine.execFieldSet v off w x s
  | .regRead r => Sys2Proof.Machine.execRegRead r s
  | .regWrite r value => Sys2Proof.Machine.execRegWrite r value s
  | .strobe r => Sys2Proof.Machine.execStrobe r s
  | .fifoRead n => Sys2Proof.Machine.execFifoRead n s
  | .fifoWrite data => Sys2Proof.Machine.execFifoWrite data s
  | .patableRead n => Sys2Proof.Machine.execPatableRead n s
  | .patableWrite data => Sys2Proof.Machine.execPatableWrite data s
  | .freqEnc hz => Sys2Proof.Machine.execFreqEnc hz s
  | .freqDec f2 f1 f0 => Sys2Proof.Machine.execFreqDec f2 f1 f0 s
  | .drateEnc baud => Sys2Proof.Machine.execDrateEnc baud s
  | .drateDec m e => Sys2Proof.Machine.execDrateDec m e s
  | .devEnc hz => Sys2Proof.Machine.execDevEnc hz s
  | .devDec m e => Sys2Proof.Machine.execDevDec m e s
  | .chbwEnc hz => Sys2Proof.Machine.execChbwEnc hz s
  | .chbwDec m e => Sys2Proof.Machine.execChbwDec m e s
  | .rssiDbm raw => Sys2Proof.Machine.execRssiDbm raw s
  | .msDec v => Sys2Proof.Machine.execMsDec v s
  | .msRead => Sys2Proof.Machine.execMsRead s
  | .msMatch target => Sys2Proof.Machine.execMsMatch target s
  | .fifoDec v => Sys2Proof.Machine.execFifoDec v s
  | .fifoPoll d => Sys2Proof.Machine.execFifoPoll d s
  | .stableStart d => Sys2Proof.Machine.execStableStart d s
  | .stableStep d => Sys2Proof.Machine.execStableStep d s
  | .crcDec lqi => Sys2Proof.Machine.execCrcDec lqi s
  | .rxOutcome ov lqi len => Sys2Proof.Machine.execRxOutcome ov lqi len s
  | .txOutcome => Sys2Proof.Machine.execTxOutcome s
  | .txFrame addr payload => Sys2Proof.Machine.execTxFrame addr payload s
  | .rxFrame buf => Sys2Proof.Machine.execRxFrame buf s
  | .ufClear => Sys2Proof.Machine.execUfClear s
  | .hdrConfigReadSingle a => Sys2Proof.Machine.execHdrConfigReadSingle a s
  | .hdrConfigWriteSingle a => Sys2Proof.Machine.execHdrConfigWriteSingle a s
  | .hdrConfigReadBurst a => Sys2Proof.Machine.execHdrConfigReadBurst a s
  | .hdrConfigWriteBurst a => Sys2Proof.Machine.execHdrConfigWriteBurst a s
  | .hdrStatusRead a => Sys2Proof.Machine.execHdrStatusRead a s
  | .hdrStrobe r a => Sys2Proof.Machine.execHdrStrobe r a s
  | .hdrPatable r b => Sys2Proof.Machine.execHdrPatable r b s
  | .hdrRxfifo b => Sys2Proof.Machine.execHdrRxfifo b s
  | .hdrTxfifo b => Sys2Proof.Machine.execHdrTxfifo b s
  | .hdrReserved2F r b => Sys2Proof.Machine.execHdrReserved2F r b s
  | .hdrReserved37 r => Sys2Proof.Machine.execHdrReserved37 r s
  | .hdrReservedWriteBurstStatus a => Sys2Proof.Machine.execHdrReservedWriteBurstStatus a s

end Sys2Proof.Machine
end

