-- ==== Sys2Proof/Machine/Step.lean ====
section
/-! DEFINITION. The step: one item of the port is one step (10_state.md R25, R27, R28; 70_reset_and_hazards.md R257). -/

namespace Sys2Proof.Machine

/-- One step. With nothing on the port the run has ended (R256). A reserved opcode is refused by an error response and
nothing else is done (R76, R213 step 1). -/
def step (s : State) : Host.Outcome State Fault Refusal :=
  match s.port with
  | [] => .fault .noRequest
  | x :: rest =>
    match decodeInput x with
    | .run i => exec i (s.setPort rest)
    | .reserved op => .next ((s.setPort rest).raise (.illegalRequest (.reservedOpcode op)))
    | .reset => .next (s.setPort rest).resetRegisters
    | .abandon i => .next ((s.setPort rest).resetDuring (frameOf i))
    | .abandonReserved => .next ((s.setPort rest).resetDuring none)
    | .malformed why => .refused (.malformedRequest why)

/-- `s` with the instruction of a table word at the front of the port: the very next step runs it. This stands for the
host presenting it (assumption log 3). -/
def State.withFetchWord (s : State) (nbits w : Nat) : State := s.setPort (tableInput nbits w :: s.port)

end Sys2Proof.Machine
end

