-- ==== Sys2Proof/Machine/HostSequences.lean ====
section
/-! DEFINITION. The pseudo-operations (30_encoding.md R82, 41_access_protocol.md R112) and the host's sequences
(70_reset_and_hazards.md R250 to R255), as functions that issue requests to the block one at a time. They are the
surrounding software the spec records "so that a model of the host can be written" (00_scope.md R5 (d)); the block's
step does not use them. A host's wait is bounded by `polls`, the OPEN parameter `MAX_POLLS` of R243 (log 10). -/

namespace Sys2Proof.Machine

/-- How a host sequence ends: with a value, with an error response of the block passed on, or with the host's own
timeout, "which is not a code of the block" (R243). -/
inductive HostEnd (α : Type) where
  | done (a : α)
  | failed (r : Response)
  | timeout
  /-- The block gave no response. It always gives one (R26); the case only makes the functions below total. -/
  | noResponse
  deriving DecidableEq, Repr

/-- The host issues one request and consumes its response (R250): the block's state after it, and the response. -/
def ask (i : Instr) (s : State) : State × Option Response :=
  match exec i s with
  | .next t => (t, t.responses.getLast?)
  | .fault _ => (s, none)
  | .refused _ => (s, none)

/-- What the host makes of a response: an OK response's fields go to `read`; anything else ends the sequence. -/
def readResponse {α : Type} (r : Option Response) (read : Result → Option α) : HostEnd α :=
  match r with
  | none => .noResponse
  | some resp =>
    match resp.data.bind read with
    | some a => .done a
    | none => .failed resp

/-- A request whose result fields the host does not use. -/
def command (i : Instr) (s : State) : State × HostEnd Unit :=
  let (t, r) := ask i s
  (t, readResponse r fun _ => some ())

/-- A request for one byte: `REG_READ` or `FIELD_SET`. -/
def askByte (i : Instr) (s : State) : State × HostEnd Byte :=
  let (t, r) := ask i s
  (t, readResponse r fun
    | .value v => some v
    | .field v => some v
    | _ => none)

/-- A request for bytes: `FIFO_READ` or `TX_FRAME`. -/
def askBytes (i : Instr) (s : State) : State × HostEnd (List Byte) :=
  let (t, r) := ask i s
  (t, readResponse r fun
    | .data bs => some bs
    | .frame bs => some bs
    | _ => none)

/-- The second part of a sequence, run only if the first ended well: an error response ends the sequence with that error
(R251), and so does the host's own timeout. That a sequence whose wait reaches `MAX_POLLS` ends there, without sending
its flush strobe, is the model's choice: R243 says only that the host reports the timeout (assumption log 10; DESIGN
CHOICE). -/
def thenRun {α β : Type} (p : State × HostEnd α) (k : α → State → State × HostEnd β) : State × HostEnd β :=
  match p with
  | (s, .done a) => k a s
  | (s, .failed r) => (s, .failed r)
  | (s, .timeout) => (s, .timeout)
  | (s, .noResponse) => (s, .noResponse)

/-! ### Pseudo-operations -/

/-- `REG_MODIFY r, f`: `REG_READ r`, then `REG_WRITE r, f(v)`; on an error of the read, no write (R112). -/
def regModify (r : Ref) (f : Byte → Byte) (s : State) : State × HostEnd Unit :=
  thenRun (askByte (.regRead r) s) fun v t => command (.regWrite r (f v)) t

/-- `SET_FIELD r, off, w, x`: `REG_READ r`, `FIELD_SET`, `REG_WRITE` (R82). -/
def setField (r : Ref) (off : BitVec 3) (w : BitVec 4) (x : Byte) (s : State) : State × HostEnd Unit :=
  thenRun (askByte (.regRead r) s) fun v t =>
    thenRun (askByte (.fieldSet v off w x) t) fun v2 u => command (.regWrite r v2) u

/-- `AWAIT_STATE t`: `MS_MATCH t`, repeated until match = 1 or an error (R82, R173). -/
def awaitState (target : BitVec 5) (polls : Nat) (s : State) : State × HostEnd Unit :=
  match polls with
  | 0 => (s, .timeout)
  | k + 1 =>
    let (t, r) := ask (.msMatch target) s
    match readResponse r (fun
      | .matched hit _ => some hit
      | _ => none) with
    | .done true => (t, .done ())
    | .done false => awaitState target k t
    | .failed e => (t, .failed e)
    | .timeout => (t, .timeout)
    | .noResponse => (t, .noResponse)

/-- The samples of a stability wait: `STABLE_STEP d`, repeated until done = 1 or an error (R82, R180). -/
def stableSteps (d : Dir) (polls : Nat) (s : State) : State × HostEnd (BitVec 7) :=
  match polls with
  | 0 => (s, .timeout)
  | k + 1 =>
    let (t, r) := ask (.stableStep d) s
    match readResponse r (fun
      | .stable done c => some (done, c)
      | _ => none) with
    | .done (true, c) => (t, .done c)
    | .done (false, _) => stableSteps d k t
    | .failed e => (t, .failed e)
    | .timeout => (t, .timeout)
    | .noResponse => (t, .noResponse)

/-- `AWAIT_FIFO_STABLE d`: `STABLE_START d`, then the samples (R82). -/
def awaitFifoStable (d : Dir) (polls : Nat) (s : State) : State × HostEnd (BitVec 7) :=
  thenRun (command (.stableStart d) s) fun _ t => stableSteps d polls t

/-! ### The packet engine -/

def refStrobe (a : BitVec 6) : Ref := ⟨Tag.strobe.code, a⟩
def strobeSrx : Instr := .strobe (refStrobe 0x34)
def strobeStx : Instr := .strobe (refStrobe 0x35)
def strobeSidle : Instr := .strobe (refStrobe 0x36)
def strobeScal : Instr := .strobe (refStrobe 0x33)
def strobeSpwd : Instr := .strobe (refStrobe 0x39)
def strobeSfrx : Instr := .strobe (refStrobe 0x3A)
def strobeSftx : Instr := .strobe (refStrobe 0x3B)

/-- The transmit wait (R251): `MS_MATCH IDLE` and `FIFO_POLL TX`, until match = 1 or the poll shows the fault (R248). -/
def transmitWait (polls : Nat) (s : State) : State × HostEnd Unit :=
  match polls with
  | 0 => (s, .timeout)
  | k + 1 =>
    let (t, r) := ask (.msMatch MarcState.idle.code) s
    match readResponse r (fun
      | .matched hit _ => some hit
      | _ => none) with
    | .failed e => (t, .failed e)
    | .timeout => (t, .timeout)
    | .noResponse => (t, .noResponse)
    | .done hit =>
      let (u, q) := ask (.fifoPoll .tx) t
      match readResponse q (fun
        | .fifoCount _ f => some f
        | _ => none) with
      | .failed e => (u, .failed e)
      | .timeout => (u, .timeout)
      | .noResponse => (u, .noResponse)
      | .done f => if hit || f then (u, .done ()) else transmitWait k u

/-- The transmit sequence (R251): the flush strobe is sent before the outcome is read (R246). When the wait times out, no
flush strobe is sent (DESIGN CHOICE, assumption log 10). -/
def transmit (addr : Byte) (payload : List Byte) (polls : Nat) (s : State) : State × HostEnd Unit :=
  thenRun (command .ufClear s) fun _ s =>
  thenRun (askBytes (.txFrame addr payload) s) fun frame s =>
  thenRun (command (.fifoWrite frame) s) fun _ s =>
  thenRun (command strobeStx s) fun _ s =>
  thenRun (transmitWait polls s) fun _ s =>
  thenRun (command strobeSftx s) fun _ s =>
  command .txOutcome s

/-- What a receive gives: the length, the sender's address and the buffer as read. -/
structure Received where
  len  : Byte
  addr : Byte
  buf  : List Byte
  deriving DecidableEq, Repr

/-- The reference of LQI (R33). -/
def refLqi : Ref := ⟨Tag.status.code, 0x33⟩

/-- The receive sequence once the FIFO is stable (R252). -/
def receiveStable (k : BitVec 8) (polls : Nat) (s : State) : State × HostEnd Received :=
  thenRun (askBytes (.fifoRead k) s) fun buf s =>
  let (s, r) := ask (.rxFrame buf) s
  match readResponse r (fun
    | .framePrefix len addr => some (len, addr)
    | _ => none) with
  | .failed e => (s, .failed e)
  | .timeout => (s, .timeout)
  | .noResponse => (s, .noResponse)
  | .done (len, addr) =>
    thenRun (askByte (.regRead refLqi) s) fun lqi s =>
    thenRun (awaitState MarcState.idle.code polls s) fun _ s =>
    thenRun (command strobeSfrx s) fun _ s =>
    thenRun (command (.rxOutcome false lqi len) s) fun _ s => (s, .done ⟨len, addr, buf⟩)

/-- The receive sequence (R252): on an RX overflow the RX FIFO is flushed and no data is read. When a wait times out, no
flush strobe is sent (DESIGN CHOICE, assumption log 10). -/
def receive (k : BitVec 8) (polls : Nat) (s : State) : State × HostEnd Received :=
  match awaitFifoStable .rx polls s with
  | (s, .done _) => receiveStable k polls s
  | (s, .timeout) => (s, .timeout)
  | (s, .noResponse) => (s, .noResponse)
  | (s, .failed e) =>
    if e.err = 2 then
      thenRun (command strobeSfrx s) fun _ s => thenRun (command (.rxOutcome true 0x00#8 0x00#8) s) fun _ s => (s, .failed e)
    else (s, .failed e)

/-- The radio modes (R253). -/
inductive RadioMode where
  | idle
  | receive
  | transmit
  | sleep
  | calibrate
  deriving DecidableEq, Repr

/-- The strobe of a mode (R253). -/
def RadioMode.strobe (m : RadioMode) : Instr :=
  match m with
  | .idle => strobeSidle
  | .receive => strobeSrx
  | .transmit => strobeStx
  | .sleep => strobeSpwd
  | .calibrate => strobeScal

/-- The state awaited for a mode (R253); Sleep's and Calibrate's are OPEN (R254). -/
def RadioMode.terminal (m : RadioMode) : BitVec 5 :=
  match m with
  | .idle => MarcState.idle.code
  | .receive => MarcState.rx.code
  | .transmit => MarcState.tx.code
  | .sleep => Config.tSleep
  | .calibrate => Config.tCal

/-- The strobe of a mode and the wait for its state. -/
def enterMode (m : RadioMode) (polls : Nat) (s : State) : State × HostEnd Unit :=
  thenRun (command m.strobe s) fun _ t => awaitState m.terminal polls t

/-- `setRadioMode(mode)` (R253): every mode but Idle is reached through Idle. -/
def setRadioMode (m : RadioMode) (polls : Nat) (s : State) : State × HostEnd Unit :=
  match m with
  | .idle => enterMode .idle polls s
  | .receive => thenRun (enterMode .idle polls s) fun _ t => enterMode .receive polls t
  | .transmit => thenRun (enterMode .idle polls s) fun _ t => enterMode .transmit polls t
  | .sleep => thenRun (enterMode .idle polls s) fun _ t => enterMode .sleep polls t
  | .calibrate => thenRun (enterMode .idle polls s) fun _ t => enterMode .calibrate polls t

end Sys2Proof.Machine
end

