-- ==== Sys2Proof/Safety.lean ====
section
/-! DEFINITION. The terms statements are made in: references, headers and grid values written out as numbers from the
spec's rules, the states a response or a transaction leaves, and the invariants of a run. -/

namespace Sys2Proof.Machine

/-! ### Words of the spec as numbers -/

/-- A reference of tag CONFIG in `REGMAP` (R31). -/
abbrev IsConfigRef (r : Ref) : Prop := r.tag.toNat = 0 ∧ r.addr.toNat ≤ 0x2E

/-- A reference of tag STATUS in `REGMAP` (R33). -/
abbrev IsStatusRef (r : Ref) : Prop := r.tag.toNat = 1 ∧ 0x30 ≤ r.addr.toNat ∧ r.addr.toNat ≤ 0x3D

/-- A reference of tag STROBE in `REGMAP` (R32). -/
abbrev IsStrobeRef (r : Ref) : Prop :=
  r.tag.toNat = 2 ∧ 0x30 ≤ r.addr.toNat ∧ r.addr.toNat ≤ 0x3D ∧ r.addr.toNat ≠ 0x37

/-- The references of the multi-byte spaces (R34). -/
abbrev IsSpaceRef (r : Ref) : Prop :=
  (r.tag.toNat = 3 ∧ r.addr.toNat = 0x3F) ∨ (r.tag.toNat = 4 ∧ r.addr.toNat = 0x3E)

/-- A reference of `REGMAP` (R31 to R34). -/
abbrev IsMappedRef (r : Ref) : Prop := IsConfigRef r ∨ IsStatusRef r ∨ IsStrobeRef r ∨ IsSpaceRef r

/-- The opcodes of R80. -/
abbrev IsOpcode (op : Nat) : Prop :=
  (0x01 ≤ op ∧ op ≤ 0x06) ∨ (0x10 ≤ op ∧ op ≤ 0x16) ∨ (0x20 ≤ op ∧ op ≤ 0x28) ∨ (0x30 ≤ op ∧ op ≤ 0x3C)

/-- The class of the header with number `h`, written out from R72. -/
def classOfNumber (h : Nat) : HdrClass :=
  if h % 64 = 0x3F then (if 128 ≤ h then .rxfifo else .txfifo)
  else if h % 64 = 0x3E then .patable
  else if h % 64 ≤ 0x2E then .config
  else if h % 64 = 0x2F then .reserved
  else if h / 64 % 2 = 0 then (if h % 64 = 0x37 then .reserved else .strobe)
  else if 128 ≤ h then .status
  else .reserved

/-- The headers of the frames of R74: the only headers a typed request sends. -/
abbrev IsFrameHeader (h : Nat) : Prop :=
  h ≤ 0x2E ∨ (0x80 ≤ h ∧ h ≤ 0xAE) ∨ (0xF0 ≤ h ∧ h ≤ 0xFD) ∨ (0x30 ≤ h ∧ h ≤ 0x3D ∧ h ≠ 0x37) ∨
    h = 0x7E ∨ h = 0x7F ∨ h = 0xFE ∨ h = 0xFF

/-- The data rate of a grid point in bit/s (R144). -/
def drateValue (m e : Nat) : ℚ := (256 + m) * 2 ^ e * 26000000 / 2 ^ 28

/-- The deviation of a grid point in Hz (R146). -/
def devValue (m e : Nat) : ℚ := (8 + m) * 2 ^ e * 26000000 / 2 ^ 17

/-- The bandwidth of a grid point in Hz (R148). -/
def chbwValue (m e : Nat) : ℚ := 26000000 / (8 * (4 + m) * 2 ^ e)

/-- The rational a result pair means (R77 `rat`). -/
def ratValue (num den : BitVec 64) : ℚ := num.toNat / den.toNat

/-! ### What a request leaves -/

/-- `s` after a response with code OK, detail 0 and the fields `d`, and nothing else changed (R26). -/
def State.withOk (s : State) (d : Result) : State :=
  { s with responses := s.responses ++ [⟨0#4, 0#16, some d, none⟩] }

/-- `s` after an error response with this code and detail and no data, and nothing else changed (R26, R210). -/
def State.withError (s : State) (err : BitVec 4) (info : BitVec 16) : State :=
  { s with responses := s.responses ++ [⟨err, info, none, none⟩] }

/-- `s` after one completed transaction: its answer used up, it stands in the wire record, its first received byte is
retained, and nothing else changed (R20, R102). That it uses up one listed answer and advances `tick` is the model's
(assumption log 5). -/
def State.afterExchange (s : State) (sent : List Byte) (status : Byte) (data : List Byte) : State :=
  { s with
    answers := s.answers.tail, tick := s.tick + 1
    wire := s.wire ++ [⟨sent, some (.received status data)⟩]
    statusLast := status, statusValid := true }

/-- `s` after one failed transaction: its answer used up, it stands in the wire record, the error response `Transport`
with the transport's value is delivered, and nothing else changed (R103, R212). The answer used up and `tick` are the
model's (assumption log 5), and so is that the record of a failed transfer holds its frame (assumption log 12). -/
def State.afterFailure (s : State) (sent : List Byte) (e : Nat) : State :=
  { s with
    answers := s.answers.tail, tick := s.tick + 1
    wire := s.wire ++ [⟨sent, some (.failed e)⟩]
    responses := s.responses ++ [⟨6#4, BitVec.ofNat 16 e, none, some e⟩] }

/-- The header with which a direction's byte-count register is read (R176). -/
def fifoBytesHeader (d : Dir) : Byte :=
  match d with
  | .rx => 0xFB#8
  | .tx => 0xFA#8

/-! ### Invariants of a run -/

/-- A response as R26, R211 and R212 allow it: codes 9 to 15 are never produced, OK carries detail 0 and data, an error
carries no data, and only `Transport` carries the out-of-band value. -/
def Response.Legal (r : Response) : Prop :=
  r.err.toNat ≤ 8 ∧ (r.err = 0 → r.info = 0 ∧ r.data.isSome) ∧ (r.err ≠ 0 → r.data = none) ∧
    (r.transport.isSome ↔ r.err = 6)

/-- Every response delivered is legal. -/
def State.ResponsesLegal (s : State) : Prop := ∀ r ∈ s.responses, r.Legal

/-- A wire record as R73, R74 and R24 allow it: what was sent begins with the header of a frame (a completed or failed
transaction has sent at least that), and a completed one received as many bytes as it sent. -/
def WireRecord.Legal (w : WireRecord) : Prop :=
  (∀ h body, w.sent = h :: body → IsFrameHeader h.toNat) ∧ (w.result ≠ none → w.sent ≠ []) ∧
    (∀ status data, w.result = some (.received status data) → data.length + 1 = w.sent.length)

/-- Every transaction on the wire is legal. -/
def State.WireLegal (s : State) : Prop := ∀ w ∈ s.wire, w.Legal

/-- A record of a completed transaction. -/
def WireRecord.Completed (w : WireRecord) : Prop := ∃ status data, w.result = some (.received status data)

/-- `STATUS_LAST`, while valid, is the first byte received in the last completed transaction (R20, R58 (c)). -/
def State.StatusIsLast (s : State) : Prop :=
  s.statusValid = true →
    ∃ before w after data, s.wire = before ++ w :: after ∧ w.result = some (.received s.statusLast data) ∧
      ∀ v ∈ after, ¬ v.Completed

/-- `UF_SEEN` is set only if a read of TXBYTES showed bit 7 = 1 (R22). -/
def State.UnderflowWasSeen (s : State) : Prop :=
  s.ufSeen = true →
    ∃ w ∈ s.wire, ∃ status v, w.sent = [0xFA#8, 0x00#8] ∧ w.result = some (.received status [v]) ∧ 128 ≤ v.toNat

/-- A valid previous sample is the count of a read of its direction's register that showed no fault (R21, R180). -/
def State.SamplesWereRead (s : State) : Prop :=
  (s.stbValidRx = true →
    ∃ w ∈ s.wire, ∃ status v, w.sent = [0xFB#8, 0x00#8] ∧ w.result = some (.received status [v]) ∧
      v.toNat = s.stbPrevRx.toNat) ∧
  (s.stbValidTx = true →
    ∃ w ∈ s.wire, ∃ status v, w.sent = [0xFA#8, 0x00#8] ∧ w.result = some (.received status [v]) ∧
      v.toNat = s.stbPrevTx.toNat)

/-- What holds of every state of a run. -/
def State.Inv (s : State) : Prop :=
  s.ResponsesLegal ∧ s.WireLegal ∧ s.StatusIsLast ∧ s.UnderflowWasSeen ∧ s.SamplesWereRead

/-- The item can be presented on the port: it is not a list of bytes that no request has (R76). -/
def Presentable (x : PortInput) : Prop := ∀ why, decodeInput x ≠ .malformed why

end Sys2Proof.Machine
end

