-- ==== Sys2Proof/Certificates/Slice0/Obligations.lean ====
section
/-! DEFINITION. The statements for the provers. Each formalises rules of the spec, named in its docstring. The state an
instruction leaves is written out: `withOk`, `withError`, `afterExchange` and `afterFailure` (Safety.lean) change exactly
the fields they name, so each equation is the instruction's frame as well. What the transport gives is `State.exchange`,
the function the meanings use; `ExchangeFollowsTheTransport` says what it is. -/

open Sys2Proof Sys2Proof.Machine

/-! ### Decoding and stepping -/

/-- R70, R77, R80: decoding the encoding of any well-formed instruction gives it back. -/
def Obligations.DecodeOfEncodeIsTheInstruction : Prop :=
  ∀ i : Instr, i.wellFormed = true → decodeInput (encodeInput i) = .run i

/-- R70 to R73, R77, R80: what decodes is a well-formed instruction and is its one encoding. -/
def Obligations.DecodedInputIsItsOneEncoding : Prop :=
  ∀ (x : PortInput) (i : Instr), decodeInput x = .run i → i.wellFormed = true ∧ encodeInput i = x

/-- Sanity: words of 95_test_vectors.md section 3 and R72 decode to the instructions they stand for. -/
def Obligations.ListedWordsDecode : Prop :=
  decodeInput (.request 0x11#8 [0x00#8, 0x0D#8, 0x10#8]) = .run (.regWrite ⟨0, 0x0D⟩ 0x10#8) ∧
  decodeInput (.request 0x20#8 [0x19#8, 0xDD#8, 0x18#8, 0x00#8]) = .run (.freqEnc 433920000#32) ∧
  decodeInput (.request 0x36#8 [0x00#8]) = .run (.stableStep .rx) ∧
  decodeInput (.request 0x06#8 [0x8C#8, 0x00#8, 0x04#8, 0x0A#8]) = .run (.fieldSet 0x8C#8 0 4 0x0A#8) ∧
  decodeInput (.header 0xF5#8) = .run (.hdrStatusRead 0x35#6) ∧
  decodeInput (.header 0xB7#8) = .run (.hdrReserved37 true)

/-- R25, R27: when the item at the front of the port decodes to an instruction, the step is that instruction, on the
state with the item taken. -/
def Obligations.StepRunsTheDecodedInstruction : Prop :=
  ∀ (s : State) (x : PortInput) (rest : List PortInput) (i : Instr),
    s.port = x :: rest → decodeInput x = .run i → step s = exec i { s with port := rest }

/-- R76, R212: an opcode that is none of R80's is refused with `IllegalRequest(0x00xx)`; nothing else changes. -/
def Obligations.ReservedOpcodeIsRefused : Prop :=
  ∀ (s : State) (op : Byte) (xs : List Byte) (rest : List PortInput),
    s.port = .request op xs :: rest → ¬ IsOpcode op.toNat →
      step s = .next (({ s with port := rest }).withError 8 (BitVec.ofNat 16 op.toNat))

/-- R25, R26: a step on anything the port can carry answers a next state, with the item taken; it delivers at most one
response and puts at most one record on the wire. -/
def Obligations.PresentableInputIsExecuted : Prop :=
  ∀ (s : State) (x : PortInput) (rest : List PortInput), s.port = x :: rest → Presentable x →
    ∃ t rs ws, step s = .next t ∧ t.port = rest ∧
      t.responses = s.responses ++ rs ∧ rs.length ≤ 1 ∧ t.wire = s.wire ++ ws ∧ ws.length ≤ 1

/-- R26: every instruction answers a next state with exactly one response more. -/
def Obligations.EveryInstructionGetsOneResponse : Prop :=
  ∀ (i : Instr) (s : State), ∃ t r, exec i s = .next t ∧ t.responses = s.responses ++ [r] ∧ t.port = s.port

/-- From R103, R108 and R213: an instruction without a frame (not a bus request, or a bus request refused before the bus)
performs no transfer and captures no status; one with a frame performs exactly one `Xfer`, of that frame; if the transfer
fails, `Transport` is raised with its value and no block register is written. The clauses on `answers` and `tick` are the
model's list of answers (assumption log 5), and the record of a failed transfer is the model's (assumption log 12). -/
def Obligations.OneTransactionPerFrame : Prop :=
  ∀ (i : Instr) (s : State), ∃ t, exec i s = .next t ∧
    (frameOf i = none →
      t.wire = s.wire ∧ t.answers = s.answers ∧ t.tick = s.tick ∧ t.statusLast = s.statusLast ∧
        t.statusValid = s.statusValid) ∧
    (∀ m, frameOf i = some m →
      t.wire = s.wire ++ [⟨m.bytes, some (s.exchange m.body.length)⟩] ∧ t.answers = s.answers.tail ∧
        ∀ e, s.exchange m.body.length = .failed e → t = s.afterFailure m.bytes e)

/-! ### Reset -/

/-- R230: the registers with a reset value have it at reset, nothing is in progress and nothing is pending. -/
def Obligations.ResetValues : Prop :=
  State.reset.statusValid = false ∧ State.reset.stbValidRx = false ∧ State.reset.stbValidTx = false ∧
    State.reset.ufSeen = false ∧ State.reset.port = [] ∧ State.reset.responses = [] ∧ State.reset.wire = []

/-- R28, R230, R231: the reset input puts the block registers to their reset values (those that hold no value are not
said), gives no response and performs no transaction; the rest is unchanged. -/
def Obligations.ResetInputResetsTheRegisters : Prop :=
  ∀ (s : State) (rest : List PortInput), s.port = .rst :: rest →
    ∃ last prevRx prevTx,
      step s = .next { s with
        port := rest, statusLast := last, statusValid := false, stbPrevRx := prevRx, stbValidRx := false,
        stbPrevTx := prevTx, stbValidTx := false, ufSeen := false }

/-- R28, R230: a request in progress when `rst` is asserted is abandoned and gets no response, and the registers are
reset. Of its frame, only a first part has been sent (assumption log 8). -/
def Obligations.ResetAbandonsTheRequest : Prop :=
  ∀ (s : State) (op : Byte) (xs : List Byte) (rest : List PortInput),
    s.port = .rstDuring op xs :: rest → Presentable (.rstDuring op xs) →
    ∃ t, step s = .next t ∧ t.responses = s.responses ∧ t.port = rest ∧ t.answers = s.answers ∧
      t.statusValid = false ∧ t.stbValidRx = false ∧ t.stbValidTx = false ∧ t.ufSeen = false ∧
      (t.wire = s.wire ∨ ∃ i m sent, decodeRequest op xs = .ok i ∧ frameOf i = some m ∧ sent <+: m.bytes ∧
        t.wire = s.wire ++ [⟨sent, none⟩])

/-! ### Header codec and status -/

/-- R100: `h = (rw << 7) | (b << 6) | a`; nothing else changes. -/
def Obligations.HdrEncFormsTheHeader : Prop :=
  ∀ (rw b : Bool) (a : BitVec 6) (s : State),
    exec (.hdrEnc rw b a) s =
      .next (s.withOk (.header (BitVec.ofNat 8 (128 * bitNat rw + 64 * bitNat b + a.toNat))))

/-- R101, R72: the fields of the header byte and its class; no error, a reserved header included. -/
def Obligations.HdrDecGivesFieldsAndClass : Prop :=
  ∀ (h : Byte) (s : State),
    exec (.hdrDec h) s =
      .next (s.withOk (.headerFields (decide (128 ≤ h.toNat)) (decide (h.toNat / 64 % 2 = 1))
        (BitVec.ofNat 6 (h.toNat % 64)) (classOfNumber h.toNat)))

/-- R101: `HDR_DEC(HDR_ENC(rw, b, a))` returns `(rw, b, a)` for every operand value. -/
def Obligations.HdrDecUndoesHdrEnc : Prop :=
  ∀ (rw b : Bool) (a : BitVec 6) (s : State), ∃ h cls,
    exec (.hdrEnc rw b a) s = .next (s.withOk (.header h)) ∧
      ∀ t : State, exec (.hdrDec h) t = .next (t.withOk (.headerFields rw b a cls))

/-- R72, R73 (and assumption log 4: a wire-header row is the header decoder taking its header): each row answers its
own fields and class, and nothing else changes. -/
def Obligations.WireHeaderRowsAnswerTheirClass : Prop :=
  ∀ (a : BitVec 6) (r b : Bool) (s : State),
    (a.toNat ≤ 0x2E →
      exec (.hdrConfigReadSingle a) s = .next (s.withOk (.headerFields true false a .config)) ∧
      exec (.hdrConfigWriteSingle a) s = .next (s.withOk (.headerFields false false a .config)) ∧
      exec (.hdrConfigReadBurst a) s = .next (s.withOk (.headerFields true true a .config)) ∧
      exec (.hdrConfigWriteBurst a) s = .next (s.withOk (.headerFields false true a .config))) ∧
    (0x30 ≤ a.toNat → a.toNat ≤ 0x3D →
      exec (.hdrStatusRead a) s = .next (s.withOk (.headerFields true true a .status)) ∧
      exec (.hdrReservedWriteBurstStatus a) s = .next (s.withOk (.headerFields false true a .reserved))) ∧
    (0x30 ≤ a.toNat → a.toNat ≤ 0x3D → a.toNat ≠ 0x37 →
      exec (.hdrStrobe r a) s = .next (s.withOk (.headerFields r false a .strobe))) ∧
    exec (.hdrPatable r b) s = .next (s.withOk (.headerFields r b 0x3E .patable)) ∧
    exec (.hdrRxfifo b) s = .next (s.withOk (.headerFields true b 0x3F .rxfifo)) ∧
    exec (.hdrTxfifo b) s = .next (s.withOk (.headerFields false b 0x3F .txfifo)) ∧
    exec (.hdrReserved2F r b) s = .next (s.withOk (.headerFields r b 0x2F .reserved)) ∧
    exec (.hdrReserved37 r) s = .next (s.withOk (.headerFields r false 0x37 .reserved))

/-- R116, R175, R181: the fields of the status byte; the count and the fault flag of a byte-count byte; the CRC flag, where
bit 7 = 1 means failure, and the estimate of an LQI byte. -/
def Obligations.ByteDecodersSplitTheByte : Prop :=
  ∀ (x : Byte) (s : State),
    exec (.statusDec x) s =
      .next (s.withOk (.statusFields (BitVec.ofNat 4 (x.toNat / 16)) (BitVec.ofNat 4 (x.toNat % 16))
        (decide (128 ≤ x.toNat)) (BitVec.ofNat 3 (x.toNat / 16 % 8)) (BitVec.ofNat 4 (x.toNat % 16)))) ∧
    exec (.fifoDec x) s = .next (s.withOk (.fifoCount (BitVec.ofNat 7 (x.toNat % 128)) (decide (128 ≤ x.toNat)))) ∧
    exec (.crcDec x) s = .next (s.withOk (.crc (decide (128 ≤ x.toNat)) (BitVec.ofNat 7 (x.toNat % 128))))

/-- R115: the retained byte while `STATUS_VALID = 1`, else valid = 0 and 0x00. -/
def Obligations.StatusGetReportsTheRetainedByte : Prop :=
  ∀ s : State,
    (s.statusValid = true → exec .statusGet s = .next (s.withOk (.status true s.statusLast))) ∧
    (s.statusValid = false → exec .statusGet s = .next (s.withOk (.status false 0x00#8)))

/-! ### Bit-field multiplexer -/

/-- R113: the w bits from off on; an empty field or one past bit 7 is refused with 0x02ow. -/
def Obligations.FieldGetExtractsTheField : Prop :=
  ∀ (v : Byte) (off : BitVec 3) (w : BitVec 4) (s : State),
    (1 ≤ w.toNat → off.toNat + w.toNat ≤ 8 →
      exec (.fieldGet v off w) s =
        .next (s.withOk (.field (BitVec.ofNat 8 (v.toNat / 2 ^ off.toNat % 2 ^ w.toNat))))) ∧
    (w.toNat = 0 ∨ 8 < off.toNat + w.toNat →
      exec (.fieldGet v off w) s = .next (s.withError 8 (BitVec.ofNat 16 (0x0200 + 16 * off.toNat + w.toNat))))

/-- R114: the bits of the field come from x, the others from v; the two refusals, in the order of the pseudocode. -/
def Obligations.FieldSetInsertsTheField : Prop :=
  ∀ (v : Byte) (off : BitVec 3) (w : BitVec 4) (x : Byte) (s : State),
    (1 ≤ w.toNat → off.toNat + w.toNat ≤ 8 → x.toNat < 2 ^ w.toNat →
      ∃ v2 : Byte, exec (.fieldSet v off w x) s = .next (s.withOk (.field v2)) ∧
        ∀ k, k < 8 →
          v2.getLsbD k =
            if off.toNat ≤ k ∧ k < off.toNat + w.toNat then x.getLsbD (k - off.toNat) else v.getLsbD k) ∧
    (w.toNat = 0 ∨ 8 < off.toNat + w.toNat →
      exec (.fieldSet v off w x) s = .next (s.withError 8 (BitVec.ofNat 16 (0x0200 + 16 * off.toNat + w.toNat)))) ∧
    (1 ≤ w.toNat → off.toNat + w.toNat ≤ 8 → 2 ^ w.toNat ≤ x.toNat →
      exec (.fieldSet v off w x) s = .next (s.withError 8 (BitVec.ofNat 16 (0x0300 + x.toNat))))

/-- R114: `FIELD_GET(FIELD_SET(v, off, w, x), off, w) = x`. -/
def Obligations.FieldGetReadsBackFieldSet : Prop :=
  ∀ (v : Byte) (off : BitVec 3) (w : BitVec 4) (x v2 : Byte) (s : State),
    exec (.fieldSet v off w x) s = .next (s.withOk (.field v2)) →
      ∀ t : State, exec (.fieldGet v2 off w) t = .next (t.withOk (.field x))

/-! ### Transactions -/

/-- R24, R50: a received sequence has the length of the sent one. Assumption log 5: an answer on the transport port that
has the length of the frame is received as it is, and a failure on the transport port is a failed transfer. -/
def Obligations.ExchangeFollowsTheTransport : Prop :=
  ∀ (s : State) (more : List Answer),
    (∀ (n : Nat) (status : Byte) (data : List Byte), s.exchange n = .received status data → data.length = n) ∧
    (∀ (status : Byte) (data : List Byte), s.answers = .reply (status :: data) :: more →
      s.exchange data.length = .received status data) ∧
    (∀ (e n : Nat), s.answers = .fail e :: more → s.exchange n = .failed e)

/-- R104, R102, R103: a configuration register is read with header 0x80 | A, a status register with 0xC0 | A; the value is
the byte received in the data slot; a failed transfer raises `Transport`; a reference of another tag is refused. -/
def Obligations.RegReadReturnsTheReceivedByte : Prop :=
  ∀ (r : Ref) (s : State),
    (∀ h : Nat, (IsConfigRef r ∧ h = 0x80 + r.addr.toNat) ∨ (IsStatusRef r ∧ h = 0xC0 + r.addr.toNat) →
      (∀ (status : Byte) (data : List Byte), s.exchange 1 = .received status data →
        ∃ v, data = [v] ∧ exec (.regRead r) s = .next
          ((s.afterExchange [BitVec.ofNat 8 h, 0x00#8] status [v]).withOk (.value v))) ∧
      (∀ e, s.exchange 1 = .failed e →
        exec (.regRead r) s = .next (s.afterFailure [BitVec.ofNat 8 h, 0x00#8] e))) ∧
    (IsMappedRef r → 2 ≤ r.tag.toNat →
      exec (.regRead r) s = .next (s.withError 8 (BitVec.ofNat 16 (0x0100 + r.tag.toNat))))

/-- R105, R102, R103: `{A, value}` is sent, and the second received byte is ignored; a failed transfer raises
`Transport`; a reference of another tag is refused. -/
def Obligations.RegWriteSendsTheValue : Prop :=
  ∀ (r : Ref) (value : Byte) (s : State),
    (IsConfigRef r →
      (∀ (status : Byte) (data : List Byte), s.exchange 1 = .received status data →
        exec (.regWrite r value) s = .next
          ((s.afterExchange [BitVec.ofNat 8 r.addr.toNat, value] status data).withOk .none)) ∧
      (∀ e, s.exchange 1 = .failed e →
        exec (.regWrite r value) s = .next (s.afterFailure [BitVec.ofNat 8 r.addr.toNat, value] e))) ∧
    (IsMappedRef r → 1 ≤ r.tag.toNat →
      exec (.regWrite r value) s = .next (s.withError 8 (BitVec.ofNat 16 (0x0100 + r.tag.toNat))))

/-- R106, R102, R103: `{A}` is sent: the transaction is one byte long; a failed transfer raises `Transport`; a reference
of another tag is refused. -/
def Obligations.StrobeSendsOneByte : Prop :=
  ∀ (r : Ref) (s : State),
    (IsStrobeRef r →
      (∀ (status : Byte) (data : List Byte), s.exchange 0 = .received status data →
        exec (.strobe r) s = .next ((s.afterExchange [BitVec.ofNat 8 r.addr.toNat] status []).withOk .none)) ∧
      (∀ e, s.exchange 0 = .failed e →
        exec (.strobe r) s = .next (s.afterFailure [BitVec.ofNat 8 r.addr.toNat] e))) ∧
    (IsMappedRef r → r.tag.toNat ≠ 2 →
      exec (.strobe r) s = .next (s.withError 8 (BitVec.ofNat 16 (0x0100 + r.tag.toNat))))

/-- R77, R212: a reference not in `REGMAP` is refused with 0x0800 | (tag << 6) | addr, whatever its tag, before any tag
check; nothing else changes. -/
def Obligations.UnmappedReferenceIsRefused : Prop :=
  ∀ (r : Ref) (value : Byte) (s : State), ¬ IsMappedRef r →
    exec (.regRead r) s = .next (s.withError 8 (BitVec.ofNat 16 (0x0800 + 64 * r.tag.toNat + r.addr.toNat))) ∧
    exec (.regWrite r value) s = .next (s.withError 8 (BitVec.ofNat 16 (0x0800 + 64 * r.tag.toNat + r.addr.toNat))) ∧
    exec (.strobe r) s = .next (s.withError 8 (BitVec.ofNat 16 (0x0800 + 64 * r.tag.toNat + r.addr.toNat)))

/-- R107, R108, R102, R103: `{0xFF}` and n dummy bytes are sent, the n received bytes are the data; a failed transfer
raises `Transport`; above 64 nothing is sent. -/
def Obligations.FifoReadReturnsTheReceivedBytes : Prop :=
  ∀ (n : BitVec 8) (s : State),
    (n.toNat ≤ 64 →
      (∀ (status : Byte) (data : List Byte), s.exchange n.toNat = .received status data →
        data.length = n.toNat ∧ exec (.fifoRead n) s = .next
          ((s.afterExchange (0xFF#8 :: List.replicate n.toNat 0x00#8) status data).withOk (.data data))) ∧
      (∀ e, s.exchange n.toNat = .failed e →
        exec (.fifoRead n) s = .next (s.afterFailure (0xFF#8 :: List.replicate n.toNat 0x00#8) e))) ∧
    (64 < n.toNat → exec (.fifoRead n) s = .next (s.withError 5 (BitVec.ofNat 16 n.toNat)))

/-- R109, R108, R102, R103: `{0x7F}` and the data are sent, unchanged and in order; a failed transfer raises `Transport`;
above 64 bytes nothing is sent. -/
def Obligations.FifoWriteSendsTheData : Prop :=
  ∀ (data : List Byte) (s : State),
    (data.length ≤ 64 →
      (∀ (status : Byte) (got : List Byte), s.exchange data.length = .received status got →
        exec (.fifoWrite data) s = .next ((s.afterExchange (0x7F#8 :: data) status got).withOk .none)) ∧
      (∀ e, s.exchange data.length = .failed e →
        exec (.fifoWrite data) s = .next (s.afterFailure (0x7F#8 :: data) e))) ∧
    (64 < data.length → exec (.fifoWrite data) s = .next (s.withError 5 (BitVec.ofNat 16 data.length)))

/-- R110, R108, R102, R103: as `FIFO_READ`, with header 0xFE and bound `PATABLE_CAP`, whatever that is. -/
def Obligations.PatableReadReturnsTheReceivedBytes : Prop :=
  ∀ (n : BitVec 8) (s : State),
    exec (.patableRead n) s = .next (
      if Config.patableCap < n.toNat then s.withError 5 (BitVec.ofNat 16 n.toNat)
      else
        match s.exchange n.toNat with
        | .received status data =>
          (s.afterExchange (0xFE#8 :: List.replicate n.toNat 0x00#8) status data).withOk (.data data)
        | .failed e => s.afterFailure (0xFE#8 :: List.replicate n.toNat 0x00#8) e)

/-- R111, R108, R102, R103: as `FIFO_WRITE`, with header 0x7E and bound `PATABLE_CAP`, whatever that is. -/
def Obligations.PatableWriteSendsTheData : Prop :=
  ∀ (data : List Byte) (s : State),
    exec (.patableWrite data) s = .next (
      if Config.patableCap < data.length then s.withError 5 (BitVec.ofNat 16 data.length)
      else
        match s.exchange data.length with
        | .received status got => (s.afterExchange (0x7E#8 :: data) status got).withOk .none
        | .failed e => s.afterFailure (0x7E#8 :: data) e)

/-- R102: every transaction without a transport error captures the status byte, whatever the request does after it. -/
def Obligations.EveryTransactionCapturesTheStatus : Prop :=
  ∀ (i : Instr) (m : Frame) (s : State) (status : Byte) (data : List Byte),
    frameOf i = some m → s.exchange m.body.length = .received status data →
      ∃ t, exec i s = .next t ∧ t.statusLast = status ∧ t.statusValid = true

/-! ### Unit converters -/

/-- R141: the nearest 22-bit word, split most significant byte first; above 1 663 999 801 Hz `OutOfRange(0x20)`. -/
def Obligations.FreqEncRoundsToTheWord : Prop :=
  ∀ (hz : BitVec 32) (s : State),
    (hz.toNat ≤ 1663999801 →
      ∃ f : Nat, f < 2 ^ 22 ∧ (f : ℚ) - 1 / 2 ≤ hz.toNat * 2 ^ 16 / 26000000 ∧
        (hz.toNat : ℚ) * 2 ^ 16 / 26000000 < f + 1 / 2 ∧
        exec (.freqEnc hz) s = .next (s.withOk (.freq (BitVec.ofNat 22 f) (BitVec.ofNat 8 (f / 65536))
          (BitVec.ofNat 8 (f / 256 % 256)) (BitVec.ofNat 8 (f % 256))))) ∧
    (1663999801 < hz.toNat → exec (.freqEnc hz) s = .next (s.withError 7 0x0020))

/-- R142, R144, R146, R148: the decoders' pairs, not reduced. -/
def Obligations.DecodersGiveTheExactPairs : Prop :=
  ∀ s : State,
    (∀ f2 f1 f0 : Byte, exec (.freqDec f2 f1 f0) s = .next (s.withOk
      (.rat (BitVec.ofNat 64 ((65536 * f2.toNat + 256 * f1.toNat + f0.toNat) * 26000000)) 65536))) ∧
    (∀ (m : BitVec 8) (e : BitVec 4), exec (.drateDec m e) s = .next (s.withOk
      (.rat (BitVec.ofNat 64 ((256 + m.toNat) * 2 ^ e.toNat * 26000000)) 268435456))) ∧
    (∀ m e : BitVec 3, exec (.devDec m e) s = .next (s.withOk
      (.rat (BitVec.ofNat 64 ((8 + m.toNat) * 2 ^ e.toNat * 26000000)) 131072))) ∧
    (∀ m e : BitVec 2, exec (.chbwDec m e) s = .next (s.withOk
      (.rat 26000000 (BitVec.ofNat 64 (8 * (4 + m.toNat) * 2 ^ e.toNat)))))

/-- R143, R152: inside the domain the answer is the one grid point nearest to the rate, strictly nearer than any other;
outside it `OutOfRange(0x22)`. -/
def Obligations.DrateEncGivesTheNearestPoint : Prop :=
  ∀ (baud : BitVec 32) (s : State),
    (25 ≤ baud.toNat → baud.toNat ≤ 1623413 →
      ∃ (m : BitVec 8) (e : BitVec 4), exec (.drateEnc baud) s = .next (s.withOk (.drate m e)) ∧
        ∀ (m' : BitVec 8) (e' : BitVec 4), (m', e') ≠ (m, e) →
          |drateValue m.toNat e.toNat - baud.toNat| < |drateValue m'.toNat e'.toNat - baud.toNat|) ∧
    (baud.toNat ≤ 24 ∨ 1623414 ≤ baud.toNat → exec (.drateEnc baud) s = .next (s.withError 7 0x0022))

/-- R145, R152: inside the domain the answer is the one grid point nearest to the deviation; outside it
`OutOfRange(0x24)`. -/
def Obligations.DevEncGivesTheNearestPoint : Prop :=
  ∀ (hz : BitVec 32) (s : State),
    (1488 ≤ hz.toNat → hz.toNat ≤ 393554 →
      ∃ m e : BitVec 3, exec (.devEnc hz) s = .next (s.withOk (.dev m e)) ∧
        ∀ m' e' : BitVec 3, (m', e') ≠ (m, e) →
          |devValue m.toNat e.toNat - hz.toNat| < |devValue m'.toNat e'.toNat - hz.toNat|) ∧
    (hz.toNat ≤ 1487 ∨ 393555 ≤ hz.toNat → exec (.devEnc hz) s = .next (s.withError 7 0x0024))

/-- R147: the narrowest bandwidth at least as wide as requested; above 812 500 Hz `OutOfRange(0x26)`. -/
def Obligations.ChbwEncGivesTheNarrowestWideEnough : Prop :=
  ∀ (hz : BitVec 32) (s : State),
    (hz.toNat ≤ 812500 →
      ∃ m e : BitVec 2, exec (.chbwEnc hz) s = .next (s.withOk (.chbw m e)) ∧
        (hz.toNat : ℚ) ≤ chbwValue m.toNat e.toNat ∧
        ∀ m' e' : BitVec 2, (m', e') ≠ (m, e) → (hz.toNat : ℚ) ≤ chbwValue m'.toNat e'.toNat →
          chbwValue m.toNat e.toNat < chbwValue m'.toNat e'.toNat) ∧
    (812500 < hz.toNat → exec (.chbwEnc hz) s = .next (s.withError 7 0x0026))

/-- R149: the values the decoders answer are strictly ordered in the grid's index. -/
def Obligations.GridsAreStrictlyOrdered : Prop :=
  ∀ (s : State) (n d n' d' : BitVec 64),
    (∀ (m m' : BitVec 8) (e e' : BitVec 4), 256 * e.toNat + m.toNat < 256 * e'.toNat + m'.toNat →
      exec (.drateDec m e) s = .next (s.withOk (.rat n d)) → exec (.drateDec m' e') s = .next (s.withOk (.rat n' d')) →
      ratValue n d < ratValue n' d') ∧
    (∀ m m' e e' : BitVec 3, 8 * e.toNat + m.toNat < 8 * e'.toNat + m'.toNat →
      exec (.devDec m e) s = .next (s.withOk (.rat n d)) → exec (.devDec m' e') s = .next (s.withOk (.rat n' d')) →
      ratValue n d < ratValue n' d') ∧
    (∀ m m' e e' : BitVec 2, 4 * e.toNat + m.toNat < 4 * e'.toNat + m'.toNat →
      exec (.chbwDec m e) s = .next (s.withOk (.rat n d)) → exec (.chbwDec m' e') s = .next (s.withOk (.rat n' d')) →
      ratValue n' d' < ratValue n d)

/-- R150: what an encoder accepts decodes to within half a step (frequency), 1/511 (data rate), 1/15 (deviation) of the
request with no grid point strictly closer, and to a bandwidth at least as wide with no grid value between. -/
def Obligations.ConvertersRoundTrip : Prop :=
  ∀ (x : BitVec 32) (s : State) (n d : BitVec 64),
    (∀ (f : BitVec 22) (f2 f1 f0 : Byte), exec (.freqEnc x) s = .next (s.withOk (.freq f f2 f1 f0)) →
      exec (.freqDec f2 f1 f0) s = .next (s.withOk (.rat n d)) → |ratValue n d - x.toNat| ≤ 26000000 / 2 ^ 17) ∧
    (∀ (m : BitVec 8) (e : BitVec 4), exec (.drateEnc x) s = .next (s.withOk (.drate m e)) →
      exec (.drateDec m e) s = .next (s.withOk (.rat n d)) →
        |ratValue n d - x.toNat| / x.toNat ≤ 1 / 511 ∧
          ∀ (m' : BitVec 8) (e' : BitVec 4), |ratValue n d - x.toNat| ≤ |drateValue m'.toNat e'.toNat - x.toNat|) ∧
    (∀ m e : BitVec 3, exec (.devEnc x) s = .next (s.withOk (.dev m e)) →
      exec (.devDec m e) s = .next (s.withOk (.rat n d)) →
        |ratValue n d - x.toNat| / x.toNat ≤ 1 / 15 ∧
          ∀ m' e' : BitVec 3, |ratValue n d - x.toNat| ≤ |devValue m'.toNat e'.toNat - x.toNat|) ∧
    (∀ m e : BitVec 2, exec (.chbwEnc x) s = .next (s.withOk (.chbw m e)) →
      exec (.chbwDec m e) s = .next (s.withOk (.rat n d)) →
        (x.toNat : ℚ) ≤ ratValue n d ∧
          ∀ m' e' : BitVec 2, (x.toNat : ℚ) ≤ chbwValue m'.toNat e'.toNat →
            ratValue n d ≤ chbwValue m'.toNat e'.toNat)

/-- R151: the encoders are monotone. -/
def Obligations.EncodersAreMonotone : Prop :=
  ∀ (x y : BitVec 32) (s : State), x.toNat ≤ y.toNat →
    (∀ (f f' : BitVec 22) (f2 f1 f0 f2' f1' f0' : Byte),
      exec (.freqEnc x) s = .next (s.withOk (.freq f f2 f1 f0)) →
      exec (.freqEnc y) s = .next (s.withOk (.freq f' f2' f1' f0')) → f.toNat ≤ f'.toNat) ∧
    (∀ (m m' : BitVec 8) (e e' : BitVec 4), exec (.drateEnc x) s = .next (s.withOk (.drate m e)) →
      exec (.drateEnc y) s = .next (s.withOk (.drate m' e')) → 256 * e.toNat + m.toNat ≤ 256 * e'.toNat + m'.toNat) ∧
    (∀ m m' e e' : BitVec 3, exec (.devEnc x) s = .next (s.withOk (.dev m e)) →
      exec (.devEnc y) s = .next (s.withOk (.dev m' e')) → 8 * e.toNat + m.toNat ≤ 8 * e'.toNat + m'.toNat) ∧
    (∀ m m' e e' : BitVec 2, exec (.chbwEnc x) s = .next (s.withOk (.chbw m e)) →
      exec (.chbwEnc y) s = .next (s.withOk (.chbw m' e')) → 4 * e'.toNat + m'.toNat ≤ 4 * e.toNat + m.toNat)

/-- R153, R154: dbm2 = sext_16(raw) - 2 * RSSI_OFFSET, exactly, whatever the offset is; so it is strictly increasing in
sext_16(raw). -/
def Obligations.RssiDbmIsTheSignedByteLessTheOffset : Prop :=
  ∀ (raw : Byte) (s : State), ∃ d : BitVec 16, exec (.rssiDbm raw) s = .next (s.withOk (.rssi d)) ∧
    d.toInt = (if raw.toNat < 128 then (raw.toNat : Int) else (raw.toNat : Int) - 256) -
      2 * (Config.rssiOffset.toNat : Int) ∧
    ∀ (raw' : Byte) (d' : BitVec 16), raw.toInt < raw'.toInt →
      exec (.rssiDbm raw') s = .next (s.withOk (.rssi d')) → d.toInt < d'.toInt

/-! ### Machine state and FIFO counts -/

/-- R171, R174: bits 7:5 are ignored; a code up to 0x16 is a state, a higher one raises `InvalidState(code)`. -/
def Obligations.MsDecDecodesTheCode : Prop :=
  ∀ (v : Byte) (s : State),
    (v.toNat % 32 ≤ 0x16 →
      ∃ st : MarcState, st.code.toNat = v.toNat % 32 ∧ exec (.msDec v) s = .next (s.withOk (.mstate st))) ∧
    (0x16 < v.toNat % 32 → exec (.msDec v) s = .next (s.withError 4 (BitVec.ofNat 16 (v.toNat % 32))))

/-- R172, R103: one read of MARCSTATE; the status is captured even when the code is unknown; a failed transfer raises
`Transport`. -/
def Obligations.MsReadDecodesMarcstate : Prop :=
  ∀ s : State,
    (∀ (status : Byte) (data : List Byte), s.exchange 1 = .received status data →
      ∃ v, data = [v] ∧
        (v.toNat % 32 ≤ 0x16 →
          ∃ st : MarcState, st.code.toNat = v.toNat % 32 ∧
            exec .msRead s = .next ((s.afterExchange [0xF5#8, 0x00#8] status [v]).withOk (.mstate st))) ∧
        (0x16 < v.toNat % 32 →
          exec .msRead s = .next
            ((s.afterExchange [0xF5#8, 0x00#8] status [v]).withError 4 (BitVec.ofNat 16 (v.toNat % 32))))) ∧
    (∀ e, s.exchange 1 = .failed e → exec .msRead s = .next (s.afterFailure [0xF5#8, 0x00#8] e))

/-- R173, R103: an unknown target is refused before the bus; otherwise one `MS_READ`, with match = 1 if the state is the
target. -/
def Obligations.MsMatchComparesOneRead : Prop :=
  ∀ (target : BitVec 5) (s : State),
    (0x16 < target.toNat → exec (.msMatch target) s = .next (s.withError 8 (BitVec.ofNat 16 (0x0600 + target.toNat)))) ∧
    (target.toNat ≤ 0x16 →
      (∀ (status : Byte) (data : List Byte), s.exchange 1 = .received status data →
        ∃ v, data = [v] ∧
          (v.toNat % 32 ≤ 0x16 →
            ∃ st : MarcState, st.code.toNat = v.toNat % 32 ∧
              exec (.msMatch target) s = .next ((s.afterExchange [0xF5#8, 0x00#8] status [v]).withOk
                (.matched (decide (v.toNat % 32 = target.toNat)) st))) ∧
          (0x16 < v.toNat % 32 →
            exec (.msMatch target) s = .next
              ((s.afterExchange [0xF5#8, 0x00#8] status [v]).withError 4 (BitVec.ofNat 16 (v.toNat % 32))))) ∧
      (∀ e, s.exchange 1 = .failed e → exec (.msMatch target) s = .next (s.afterFailure [0xF5#8, 0x00#8] e)))

/-- R177, R176, R103: one read of RXBYTES or TXBYTES; a fault is data, and a TX fault sets `UF_SEEN`; a failed transfer
raises `Transport`. -/
def Obligations.FifoPollReportsTheCount : Prop :=
  ∀ s : State,
    (∀ (status : Byte) (data : List Byte), s.exchange 1 = .received status data →
      ∃ v, data = [v] ∧
        exec (.fifoPoll .rx) s = .next ((s.afterExchange [0xFB#8, 0x00#8] status [v]).withOk
          (.fifoCount (BitVec.ofNat 7 (v.toNat % 128)) (decide (128 ≤ v.toNat)))) ∧
        exec (.fifoPoll .tx) s = .next
          (({ s.afterExchange [0xFA#8, 0x00#8] status [v] with ufSeen := s.ufSeen || decide (128 ≤ v.toNat) }).withOk
            (.fifoCount (BitVec.ofNat 7 (v.toNat % 128)) (decide (128 ≤ v.toNat))))) ∧
    (∀ (e : Nat) (d : Dir), s.exchange 1 = .failed e →
      exec (.fifoPoll d) s = .next (s.afterFailure [fifoBytesHeader d, 0x00#8] e))

/-! ### Stability monitor -/

/-- R179: the direction's valid bit is cleared, and nothing else. -/
def Obligations.StableStartDiscardsTheSample : Prop :=
  ∀ s : State,
    exec (.stableStart .rx) s = .next (({ s with stbValidRx := false }).withOk .none) ∧
    exec (.stableStart .tx) s = .next (({ s with stbValidTx := false }).withOk .none)

/-- R180, R176, R103: the fault first (for TX it sets `UF_SEEN`); then the comparison with the previous sample; else the sample
is kept; a failed transfer raises `Transport`. -/
def Obligations.StableStepJudgesTheSample : Prop :=
  ∀ s : State,
    (∀ (status : Byte) (data : List Byte), s.exchange 1 = .received status data →
      ∃ v, data = [v] ∧
        exec (.stableStep .rx) s = .next (
          if 128 ≤ v.toNat then
            ({ s.afterExchange [0xFB#8, 0x00#8] status [v] with stbValidRx := false }).withError 2
              (BitVec.ofNat 16 (v.toNat % 128))
          else if v.toNat ≠ 0 ∧ s.stbValidRx = true ∧ s.stbPrevRx.toNat = v.toNat then
            ({ s.afterExchange [0xFB#8, 0x00#8] status [v] with stbValidRx := false }).withOk
              (.stable true (BitVec.ofNat 7 v.toNat))
          else
            ({ s.afterExchange [0xFB#8, 0x00#8] status [v] with
                stbPrevRx := BitVec.ofNat 7 v.toNat, stbValidRx := true }).withOk
              (.stable false (BitVec.ofNat 7 v.toNat))) ∧
        exec (.stableStep .tx) s = .next (
          if 128 ≤ v.toNat then
            ({ s.afterExchange [0xFA#8, 0x00#8] status [v] with ufSeen := true, stbValidTx := false }).withError 1
              (BitVec.ofNat 16 (v.toNat % 128))
          else if v.toNat ≠ 0 ∧ s.stbValidTx = true ∧ s.stbPrevTx.toNat = v.toNat then
            ({ s.afterExchange [0xFA#8, 0x00#8] status [v] with stbValidTx := false }).withOk
              (.stable true (BitVec.ofNat 7 v.toNat))
          else
            ({ s.afterExchange [0xFA#8, 0x00#8] status [v] with
                stbPrevTx := BitVec.ofNat 7 v.toNat, stbValidTx := true }).withOk
              (.stable false (BitVec.ofNat 7 v.toNat)))) ∧
    (∀ (e : Nat) (d : Dir), s.exchange 1 = .failed e →
      exec (.stableStep d) s = .next (s.afterFailure [fifoBytesHeader d, 0x00#8] e))

/-- R178 (b): a host's wait that ends stable took its last two samples with the same non-zero count and no fault; the two
are the last transactions on the wire. -/
def Obligations.StableWaitEndsOnTwoEqualSamples : Prop :=
  ∀ (d : Dir) (polls : Nat) (s t : State) (c : BitVec 7), awaitFifoStable d polls s = (t, .done c) →
    c.toNat ≠ 0 ∧ ∃ before status status' v, v.toNat = c.toNat ∧
      t.wire = before ++ [⟨[fifoBytesHeader d, 0x00#8], some (.received status [v])⟩,
        ⟨[fifoBytesHeader d, 0x00#8], some (.received status' [v])⟩]

/-! ### Outcomes and packet frames -/

/-- R182: overflow first, then the CRC flag, else the length as given. -/
def Obligations.RxOutcomeChecksOverflowThenCrc : Prop :=
  ∀ (lqi len : Byte) (s : State),
    exec (.rxOutcome true lqi len) s = .next (s.withError 2 0) ∧
    (128 ≤ lqi.toNat → exec (.rxOutcome false lqi len) s = .next (s.withError 3 (BitVec.ofNat 16 lqi.toNat))) ∧
    (lqi.toNat < 128 → exec (.rxOutcome false lqi len) s = .next (s.withOk (.length len)))

/-- R186, R187: both clear `UF_SEEN`; `TX_OUTCOME` raises `TxUnderflow(0)` if it was set. -/
def Obligations.TxOutcomeReadsAndClearsTheTracker : Prop :=
  ∀ s : State,
    (s.ufSeen = true → exec .txOutcome s = .next (({ s with ufSeen := false }).withError 1 0)) ∧
    (s.ufSeen = false → exec .txOutcome s = .next (s.withOk .none)) ∧
    exec .ufClear s = .next (({ s with ufSeen := false }).withOk .none)

/-- R183, R185, R184: a frame is the length, the address, the payload, of at most 62 bytes; a buffer of 2 to 64 bytes
gives its bytes 0 and 1; other lengths are a `UserInputError` (of n + 2, of n). -/
def Obligations.FramesAreBuiltAndParsed : Prop :=
  ∀ (addr : Byte) (payload buf : List Byte) (s : State),
    (payload.length ≤ 62 →
      exec (.txFrame addr payload) s = .next (s.withOk (.frame ([BitVec.ofNat 8 payload.length, addr] ++ payload)))) ∧
    (62 < payload.length →
      exec (.txFrame addr payload) s = .next (s.withError 5 (BitVec.ofNat 16 (payload.length + 2)))) ∧
    (∀ len : Byte, buf = [len, addr] ++ payload → buf.length ≤ 64 →
      exec (.rxFrame buf) s = .next (s.withOk (.framePrefix len addr))) ∧
    (buf.length < 2 ∨ 64 < buf.length → exec (.rxFrame buf) s = .next (s.withError 5 (BitVec.ofNat 16 buf.length)))

/-! ### Host sequences -/

/-- R112: `REG_MODIFY` reads, then writes f of the value read; when the read fails, nothing is written. -/
def Obligations.RegModifyReadsThenWrites : Prop :=
  ∀ (r : Ref) (f : Byte → Byte) (s t : State) (status v : Byte), IsConfigRef r →
    (s.exchange 1 = .received status [v] →
      t = (s.afterExchange [BitVec.ofNat 8 (0x80 + r.addr.toNat), 0x00#8] status [v]).withOk (.value v) →
      (regModify r f s).1.wire = t.wire ++
        [⟨[BitVec.ofNat 8 r.addr.toNat, f v], some (t.exchange 1)⟩]) ∧
    (∀ e, s.exchange 1 = .failed e →
      (regModify r f s).1.wire = s.wire ++
        [⟨[BitVec.ofNat 8 (0x80 + r.addr.toNat), 0x00#8], some (.failed e)⟩] ∧
      (regModify r f s).2 = .failed ⟨6#4, BitVec.ofNat 16 e, none, some e⟩)

/-- R246, R251: a transmit that reports success, or reports `TxUnderflow`, has sent `STROBE SFTX` last. -/
def Obligations.TransmitFlushesBeforeItsOutcome : Prop :=
  ∀ (addr : Byte) (payload : List Byte) (polls : Nat) (s t : State) (how : HostEnd Unit),
    transmit addr payload polls s = (t, how) →
    (how = .done () ∨ ∃ r, how = .failed r ∧ r.err = 1) →
      ∃ before status, t.wire = before ++ [⟨[0x3B#8], some (.received status [])⟩]

/-- R246, R252: a receive that reports a packet, `RxOverflow` or `CrcMismatch` has sent `STROBE SFRX` last. -/
def Obligations.ReceiveFlushesBeforeItsOutcome : Prop :=
  ∀ (k : BitVec 8) (polls : Nat) (s t : State) (how : HostEnd Received),
    receive k polls s = (t, how) →
    ((∃ p, how = .done p) ∨ ∃ r, how = .failed r ∧ (r.err = 2 ∨ r.err = 3)) →
      ∃ before status, t.wire = before ++ [⟨[0x3A#8], some (.received status [])⟩]

/-! ### Invariants -/

/-- The invariant holds at reset. -/
def Obligations.ResetMeetsTheInvariant : Prop := State.reset.Inv

/-- R26, R211, R212: every step keeps: each response is one the codes and details of the spec allow. -/
def Obligations.StepKeepsResponsesLegal : Prop :=
  ∀ s t : State, s.ResponsesLegal → step s = .next t → t.ResponsesLegal

/-- R24, R73, R74: every step keeps: whatever is on the wire began with a header of R74's frames, never a reserved one,
and received as much as it sent. -/
def Obligations.StepKeepsTheWireLegal : Prop :=
  ∀ s t : State, s.WireLegal → step s = .next t → t.WireLegal

/-- R20, R58 (c): every step keeps: `STATUS_LAST` is the first byte of the last completed transaction. -/
def Obligations.StepKeepsStatusIsLast : Prop :=
  ∀ s t : State, s.StatusIsLast → step s = .next t → t.StatusIsLast

/-- R22: every step keeps: `UF_SEEN` is set only after a read of TXBYTES with bit 7 = 1. -/
def Obligations.StepKeepsUnderflowWasSeen : Prop :=
  ∀ s t : State, s.UnderflowWasSeen → step s = .next t → t.UnderflowWasSeen

/-- R21, R180: every step keeps: a valid previous sample is the count of a fault-free read of its register. -/
def Obligations.StepKeepsSamplesWereRead : Prop :=
  ∀ s t : State, s.SamplesWereRead → step s = .next t → t.SamplesWereRead
end

