-- ==== Sys2Proof/Laws/RegMap.lean ====
section
/-! SUPPORT. The tables as ranges of numbers: `REGMAP`, the header byte and its fields, the machine-state codes. -/

namespace Sys2Proof.Machine

/-- `REGMAP`, address by address, is the ranges of R31 to R34. -/
theorem inRegMap_table :
    ∀ tag : BitVec 3, ∀ addr : BitVec 6, inRegMap ⟨tag, addr⟩ = decide (IsMappedRef ⟨tag, addr⟩) := by
  decide +kernel

theorem inRegMap_eq (r : Ref) : inRegMap r = decide (IsMappedRef r) := inRegMap_table r.tag r.addr

theorem isConfigAddr_eq (a : BitVec 6) : isConfigAddr a = decide (a.toNat ≤ 0x2E) := by
  revert a
  decide +kernel

theorem isStrobeAddr_eq (a : BitVec 6) :
    isStrobeAddr a = decide (0x30 ≤ a.toNat ∧ a.toNat ≤ 0x3D ∧ a.toNat ≠ 0x37) := by
  revert a
  decide +kernel

/-- The header byte as a number (R70). -/
theorem headerByte_toNat (rw b : Bool) (a : BitVec 6) :
    (headerByte rw b a).toNat = 128 * bitNat rw + 64 * bitNat b + a.toNat := by
  revert rw b a
  decide +kernel

@[simp] theorem headerRw_headerByte (rw b : Bool) (a : BitVec 6) : headerRw (headerByte rw b a) = rw := by
  revert rw b a
  decide +kernel

@[simp] theorem headerB_headerByte (rw b : Bool) (a : BitVec 6) : headerB (headerByte rw b a) = b := by
  revert rw b a
  decide +kernel

@[simp] theorem headerAddr_headerByte (rw b : Bool) (a : BitVec 6) : headerAddr (headerByte rw b a) = a := by
  revert rw b a
  decide +kernel

/-- A header byte is the header byte of its fields. -/
theorem headerByte_of_fields (h : Byte) : headerByte (headerRw h) (headerB h) (headerAddr h) = h := by
  revert h
  decide +kernel

/-- The class, as R72 gives it in numbers. -/
theorem headerClass_eq (h : Byte) : headerClass h = classOfNumber h.toNat := by
  revert h
  decide +kernel

/-- A code names a state exactly if it is at most 0x16 (R170, R174). -/
theorem marcOfCode_isSome (c : BitVec 5) : (marcOfCode c).isSome = decide (c.toNat ≤ 0x16) := by
  revert c
  decide +kernel

@[simp] theorem marcOfCode_code (m : MarcState) : marcOfCode m.code = some m := by
  cases m <;> decide +kernel

/-- The state a code names has that code. -/
theorem code_of_marcOfCode {c : BitVec 5} {m : MarcState} (h : marcOfCode c = some m) : m.code = c := by
  have := List.find?_some h
  simpa using this

end Sys2Proof.Machine
end

