-- ==== Sys2Proof/Laws/Decode.lean ====
section
/-! SUPPORT. What the readers of the decoder do: each undoes the encoder's layout of its field, and what it reads is laid
out that way. -/

namespace Sys2Proof

@[simp] theorem readField_fieldByte {w : Nat} (hw : w ≤ 8) (v : BitVec w) (rest : List Byte) :
    readField w (fieldByte v :: rest) = .ok (v, rest) := by
  have hlt : v.toNat < 2 ^ w := v.isLt
  have hpow : (2 : Nat) ^ w ≤ 2 ^ 8 := Nat.pow_le_pow_right (by decide) hw
  have hto : (v.setWidth 8).toNat = v.toNat := by
    rw [BitVec.toNat_setWidth]
    exact Nat.mod_eq_of_lt (by omega)
  simp only [readField, fieldByte, hto, hlt, if_true]
  congr 2
  apply BitVec.eq_of_toNat_eq
  rw [BitVec.toNat_setWidth, hto]
  exact Nat.mod_eq_of_lt hlt

@[simp] theorem readField_byte (v : Byte) (rest : List Byte) : readField 8 (v :: rest) = .ok (v, rest) := by
  have h : v.toNat < 2 ^ 8 := v.isLt
  simp [readField]
  omega

@[simp] theorem readBit_bitByte (b : Bool) (rest : List Byte) : readBit (bitByte b :: rest) = .ok (b, rest) := by
  cases b <;> rfl

@[simp] theorem readDir_dirByte (d : Dir) (rest : List Byte) : readDir (dirByte d :: rest) = .ok (d, rest) := by
  cases d <;> rfl

@[simp] theorem readRef_refBytes (r : Ref) (rest : List Byte) : readRef (refBytes r ++ rest) = .ok (r, rest) := by
  cases r with
  | mk tag addr =>
    simp [readRef, refBytes, bind, Except.bind, pure, Except.pure]

/-- A byte put below a word, as a number. -/
theorem toNat_append_byte {n : Nat} (x : BitVec n) (y : Byte) : (x ++ y).toNat = x.toNat * 256 + y.toNat := by
  have hy : y.toNat < 2 ^ 8 := y.isLt
  rw [BitVec.toNat_append, ← Nat.shiftLeft_add_eq_or_of_lt hy, Nat.shiftLeft_eq]

/-- A u32 is its four bytes, the most significant first. -/
theorem wordBytes_append (v : BitVec 32) :
    v.extractLsb' 24 8 ++ v.extractLsb' 16 8 ++ v.extractLsb' 8 8 ++ v.extractLsb' 0 8 = v := by
  apply BitVec.eq_of_toNat_eq
  have hv : v.toNat < 2 ^ 32 := v.isLt
  simp only [toNat_append_byte, BitVec.extractLsb'_toNat, Nat.shiftRight_eq_div_pow]
  omega

@[simp] theorem readWord_wordBytes (v : BitVec 32) (rest : List Byte) :
    readWord (wordBytes v ++ rest) = .ok (v, rest) := by
  simp [readWord, wordBytes, wordBytes_append]

@[simp] theorem readBytes_bytesWithLength (data rest : List Byte) (h : data.length ≤ 255) :
    readBytes (bytesWithLength data ++ rest) = .ok (data, rest) := by
  have hn : (BitVec.ofNat 8 data.length).toNat = data.length := by
    rw [BitVec.toNat_ofNat]
    exact Nat.mod_eq_of_lt (by omega)
  simp only [readBytes, bytesWithLength, List.cons_append, hn]
  simp

end Sys2Proof
end

