-- ==== Sys2Proof/Laws/State.lean ====
section
/-! SUPPORT. One lemma for each field and each update of the state, so that no later proof unfolds a record update. -/

namespace Sys2Proof.Machine

@[simp] theorem State.respond_statusLast (s : State) (d : Result) :
    (s.respond d).statusLast = s.statusLast := rfl
@[simp] theorem State.respond_statusValid (s : State) (d : Result) :
    (s.respond d).statusValid = s.statusValid := rfl
@[simp] theorem State.respond_stbPrevRx (s : State) (d : Result) :
    (s.respond d).stbPrevRx = s.stbPrevRx := rfl
@[simp] theorem State.respond_stbValidRx (s : State) (d : Result) :
    (s.respond d).stbValidRx = s.stbValidRx := rfl
@[simp] theorem State.respond_stbPrevTx (s : State) (d : Result) :
    (s.respond d).stbPrevTx = s.stbPrevTx := rfl
@[simp] theorem State.respond_stbValidTx (s : State) (d : Result) :
    (s.respond d).stbValidTx = s.stbValidTx := rfl
@[simp] theorem State.respond_ufSeen (s : State) (d : Result) :
    (s.respond d).ufSeen = s.ufSeen := rfl
@[simp] theorem State.respond_port (s : State) (d : Result) :
    (s.respond d).port = s.port := rfl
@[simp] theorem State.respond_answers (s : State) (d : Result) :
    (s.respond d).answers = s.answers := rfl
@[simp] theorem State.respond_tick (s : State) (d : Result) :
    (s.respond d).tick = s.tick := rfl
@[simp] theorem State.respond_wire (s : State) (d : Result) :
    (s.respond d).wire = s.wire := rfl
@[simp] theorem State.respond_responses (s : State) (d : Result) :
    (s.respond d).responses = s.responses ++ [.ok d] := rfl

@[simp] theorem State.raise_statusLast (s : State) (e : Err) :
    (s.raise e).statusLast = s.statusLast := rfl
@[simp] theorem State.raise_statusValid (s : State) (e : Err) :
    (s.raise e).statusValid = s.statusValid := rfl
@[simp] theorem State.raise_stbPrevRx (s : State) (e : Err) :
    (s.raise e).stbPrevRx = s.stbPrevRx := rfl
@[simp] theorem State.raise_stbValidRx (s : State) (e : Err) :
    (s.raise e).stbValidRx = s.stbValidRx := rfl
@[simp] theorem State.raise_stbPrevTx (s : State) (e : Err) :
    (s.raise e).stbPrevTx = s.stbPrevTx := rfl
@[simp] theorem State.raise_stbValidTx (s : State) (e : Err) :
    (s.raise e).stbValidTx = s.stbValidTx := rfl
@[simp] theorem State.raise_ufSeen (s : State) (e : Err) :
    (s.raise e).ufSeen = s.ufSeen := rfl
@[simp] theorem State.raise_port (s : State) (e : Err) :
    (s.raise e).port = s.port := rfl
@[simp] theorem State.raise_answers (s : State) (e : Err) :
    (s.raise e).answers = s.answers := rfl
@[simp] theorem State.raise_tick (s : State) (e : Err) :
    (s.raise e).tick = s.tick := rfl
@[simp] theorem State.raise_wire (s : State) (e : Err) :
    (s.raise e).wire = s.wire := rfl
@[simp] theorem State.raise_responses (s : State) (e : Err) :
    (s.raise e).responses = s.responses ++ [.error e] := rfl

@[simp] theorem State.record_statusLast (s : State) (m : Frame) (r : XferResult) :
    (s.record m r).statusLast = s.statusLast := rfl
@[simp] theorem State.record_statusValid (s : State) (m : Frame) (r : XferResult) :
    (s.record m r).statusValid = s.statusValid := rfl
@[simp] theorem State.record_stbPrevRx (s : State) (m : Frame) (r : XferResult) :
    (s.record m r).stbPrevRx = s.stbPrevRx := rfl
@[simp] theorem State.record_stbValidRx (s : State) (m : Frame) (r : XferResult) :
    (s.record m r).stbValidRx = s.stbValidRx := rfl
@[simp] theorem State.record_stbPrevTx (s : State) (m : Frame) (r : XferResult) :
    (s.record m r).stbPrevTx = s.stbPrevTx := rfl
@[simp] theorem State.record_stbValidTx (s : State) (m : Frame) (r : XferResult) :
    (s.record m r).stbValidTx = s.stbValidTx := rfl
@[simp] theorem State.record_ufSeen (s : State) (m : Frame) (r : XferResult) :
    (s.record m r).ufSeen = s.ufSeen := rfl
@[simp] theorem State.record_port (s : State) (m : Frame) (r : XferResult) :
    (s.record m r).port = s.port := rfl
@[simp] theorem State.record_answers (s : State) (m : Frame) (r : XferResult) :
    (s.record m r).answers = s.answers.tail := rfl
@[simp] theorem State.record_tick (s : State) (m : Frame) (r : XferResult) :
    (s.record m r).tick = s.tick + 1 := rfl
@[simp] theorem State.record_wire (s : State) (m : Frame) (r : XferResult) :
    (s.record m r).wire = s.wire ++ [⟨m.bytes, some r⟩] := rfl
@[simp] theorem State.record_responses (s : State) (m : Frame) (r : XferResult) :
    (s.record m r).responses = s.responses := rfl

@[simp] theorem State.capture_statusLast (s : State) (x : Byte) :
    (s.capture x).statusLast = x := rfl
@[simp] theorem State.capture_statusValid (s : State) (x : Byte) :
    (s.capture x).statusValid = true := rfl
@[simp] theorem State.capture_stbPrevRx (s : State) (x : Byte) :
    (s.capture x).stbPrevRx = s.stbPrevRx := rfl
@[simp] theorem State.capture_stbValidRx (s : State) (x : Byte) :
    (s.capture x).stbValidRx = s.stbValidRx := rfl
@[simp] theorem State.capture_stbPrevTx (s : State) (x : Byte) :
    (s.capture x).stbPrevTx = s.stbPrevTx := rfl
@[simp] theorem State.capture_stbValidTx (s : State) (x : Byte) :
    (s.capture x).stbValidTx = s.stbValidTx := rfl
@[simp] theorem State.capture_ufSeen (s : State) (x : Byte) :
    (s.capture x).ufSeen = s.ufSeen := rfl
@[simp] theorem State.capture_port (s : State) (x : Byte) :
    (s.capture x).port = s.port := rfl
@[simp] theorem State.capture_answers (s : State) (x : Byte) :
    (s.capture x).answers = s.answers := rfl
@[simp] theorem State.capture_tick (s : State) (x : Byte) :
    (s.capture x).tick = s.tick := rfl
@[simp] theorem State.capture_wire (s : State) (x : Byte) :
    (s.capture x).wire = s.wire := rfl
@[simp] theorem State.capture_responses (s : State) (x : Byte) :
    (s.capture x).responses = s.responses := rfl

@[simp] theorem State.setPort_statusLast (s : State) (rest : List PortInput) :
    (s.setPort rest).statusLast = s.statusLast := rfl
@[simp] theorem State.setPort_statusValid (s : State) (rest : List PortInput) :
    (s.setPort rest).statusValid = s.statusValid := rfl
@[simp] theorem State.setPort_stbPrevRx (s : State) (rest : List PortInput) :
    (s.setPort rest).stbPrevRx = s.stbPrevRx := rfl
@[simp] theorem State.setPort_stbValidRx (s : State) (rest : List PortInput) :
    (s.setPort rest).stbValidRx = s.stbValidRx := rfl
@[simp] theorem State.setPort_stbPrevTx (s : State) (rest : List PortInput) :
    (s.setPort rest).stbPrevTx = s.stbPrevTx := rfl
@[simp] theorem State.setPort_stbValidTx (s : State) (rest : List PortInput) :
    (s.setPort rest).stbValidTx = s.stbValidTx := rfl
@[simp] theorem State.setPort_ufSeen (s : State) (rest : List PortInput) :
    (s.setPort rest).ufSeen = s.ufSeen := rfl
@[simp] theorem State.setPort_port (s : State) (rest : List PortInput) :
    (s.setPort rest).port = rest := rfl
@[simp] theorem State.setPort_answers (s : State) (rest : List PortInput) :
    (s.setPort rest).answers = s.answers := rfl
@[simp] theorem State.setPort_tick (s : State) (rest : List PortInput) :
    (s.setPort rest).tick = s.tick := rfl
@[simp] theorem State.setPort_wire (s : State) (rest : List PortInput) :
    (s.setPort rest).wire = s.wire := rfl
@[simp] theorem State.setPort_responses (s : State) (rest : List PortInput) :
    (s.setPort rest).responses = s.responses := rfl

@[simp] theorem State.setUfSeen_statusLast (s : State) (v : Bool) :
    (s.setUfSeen v).statusLast = s.statusLast := rfl
@[simp] theorem State.setUfSeen_statusValid (s : State) (v : Bool) :
    (s.setUfSeen v).statusValid = s.statusValid := rfl
@[simp] theorem State.setUfSeen_stbPrevRx (s : State) (v : Bool) :
    (s.setUfSeen v).stbPrevRx = s.stbPrevRx := rfl
@[simp] theorem State.setUfSeen_stbValidRx (s : State) (v : Bool) :
    (s.setUfSeen v).stbValidRx = s.stbValidRx := rfl
@[simp] theorem State.setUfSeen_stbPrevTx (s : State) (v : Bool) :
    (s.setUfSeen v).stbPrevTx = s.stbPrevTx := rfl
@[simp] theorem State.setUfSeen_stbValidTx (s : State) (v : Bool) :
    (s.setUfSeen v).stbValidTx = s.stbValidTx := rfl
@[simp] theorem State.setUfSeen_ufSeen (s : State) (v : Bool) :
    (s.setUfSeen v).ufSeen = v := rfl
@[simp] theorem State.setUfSeen_port (s : State) (v : Bool) :
    (s.setUfSeen v).port = s.port := rfl
@[simp] theorem State.setUfSeen_answers (s : State) (v : Bool) :
    (s.setUfSeen v).answers = s.answers := rfl
@[simp] theorem State.setUfSeen_tick (s : State) (v : Bool) :
    (s.setUfSeen v).tick = s.tick := rfl
@[simp] theorem State.setUfSeen_wire (s : State) (v : Bool) :
    (s.setUfSeen v).wire = s.wire := rfl
@[simp] theorem State.setUfSeen_responses (s : State) (v : Bool) :
    (s.setUfSeen v).responses = s.responses := rfl

@[simp] theorem State.resetRegisters_statusLast (s : State) :
    (s.resetRegisters).statusLast = State.reset.statusLast := rfl
@[simp] theorem State.resetRegisters_statusValid (s : State) :
    (s.resetRegisters).statusValid = State.reset.statusValid := rfl
@[simp] theorem State.resetRegisters_stbPrevRx (s : State) :
    (s.resetRegisters).stbPrevRx = State.reset.stbPrevRx := rfl
@[simp] theorem State.resetRegisters_stbValidRx (s : State) :
    (s.resetRegisters).stbValidRx = State.reset.stbValidRx := rfl
@[simp] theorem State.resetRegisters_stbPrevTx (s : State) :
    (s.resetRegisters).stbPrevTx = State.reset.stbPrevTx := rfl
@[simp] theorem State.resetRegisters_stbValidTx (s : State) :
    (s.resetRegisters).stbValidTx = State.reset.stbValidTx := rfl
@[simp] theorem State.resetRegisters_ufSeen (s : State) :
    (s.resetRegisters).ufSeen = State.reset.ufSeen := rfl
@[simp] theorem State.resetRegisters_port (s : State) :
    (s.resetRegisters).port = s.port := rfl
@[simp] theorem State.resetRegisters_answers (s : State) :
    (s.resetRegisters).answers = s.answers := rfl
@[simp] theorem State.resetRegisters_tick (s : State) :
    (s.resetRegisters).tick = s.tick := rfl
@[simp] theorem State.resetRegisters_wire (s : State) :
    (s.resetRegisters).wire = s.wire := rfl
@[simp] theorem State.resetRegisters_responses (s : State) :
    (s.resetRegisters).responses = s.responses := rfl

@[simp] theorem State.withOk_statusLast (s : State) (d : Result) :
    (s.withOk d).statusLast = s.statusLast := rfl
@[simp] theorem State.withOk_statusValid (s : State) (d : Result) :
    (s.withOk d).statusValid = s.statusValid := rfl
@[simp] theorem State.withOk_stbPrevRx (s : State) (d : Result) :
    (s.withOk d).stbPrevRx = s.stbPrevRx := rfl
@[simp] theorem State.withOk_stbValidRx (s : State) (d : Result) :
    (s.withOk d).stbValidRx = s.stbValidRx := rfl
@[simp] theorem State.withOk_stbPrevTx (s : State) (d : Result) :
    (s.withOk d).stbPrevTx = s.stbPrevTx := rfl
@[simp] theorem State.withOk_stbValidTx (s : State) (d : Result) :
    (s.withOk d).stbValidTx = s.stbValidTx := rfl
@[simp] theorem State.withOk_ufSeen (s : State) (d : Result) :
    (s.withOk d).ufSeen = s.ufSeen := rfl
@[simp] theorem State.withOk_port (s : State) (d : Result) :
    (s.withOk d).port = s.port := rfl
@[simp] theorem State.withOk_answers (s : State) (d : Result) :
    (s.withOk d).answers = s.answers := rfl
@[simp] theorem State.withOk_tick (s : State) (d : Result) :
    (s.withOk d).tick = s.tick := rfl
@[simp] theorem State.withOk_wire (s : State) (d : Result) :
    (s.withOk d).wire = s.wire := rfl
@[simp] theorem State.withOk_responses (s : State) (d : Result) :
    (s.withOk d).responses = s.responses ++ [⟨0#4, 0#16, some d, none⟩] := rfl

@[simp] theorem State.withError_statusLast (s : State) (err : BitVec 4) (info : BitVec 16) :
    (s.withError err info).statusLast = s.statusLast := rfl
@[simp] theorem State.withError_statusValid (s : State) (err : BitVec 4) (info : BitVec 16) :
    (s.withError err info).statusValid = s.statusValid := rfl
@[simp] theorem State.withError_stbPrevRx (s : State) (err : BitVec 4) (info : BitVec 16) :
    (s.withError err info).stbPrevRx = s.stbPrevRx := rfl
@[simp] theorem State.withError_stbValidRx (s : State) (err : BitVec 4) (info : BitVec 16) :
    (s.withError err info).stbValidRx = s.stbValidRx := rfl
@[simp] theorem State.withError_stbPrevTx (s : State) (err : BitVec 4) (info : BitVec 16) :
    (s.withError err info).stbPrevTx = s.stbPrevTx := rfl
@[simp] theorem State.withError_stbValidTx (s : State) (err : BitVec 4) (info : BitVec 16) :
    (s.withError err info).stbValidTx = s.stbValidTx := rfl
@[simp] theorem State.withError_ufSeen (s : State) (err : BitVec 4) (info : BitVec 16) :
    (s.withError err info).ufSeen = s.ufSeen := rfl
@[simp] theorem State.withError_port (s : State) (err : BitVec 4) (info : BitVec 16) :
    (s.withError err info).port = s.port := rfl
@[simp] theorem State.withError_answers (s : State) (err : BitVec 4) (info : BitVec 16) :
    (s.withError err info).answers = s.answers := rfl
@[simp] theorem State.withError_tick (s : State) (err : BitVec 4) (info : BitVec 16) :
    (s.withError err info).tick = s.tick := rfl
@[simp] theorem State.withError_wire (s : State) (err : BitVec 4) (info : BitVec 16) :
    (s.withError err info).wire = s.wire := rfl
@[simp] theorem State.withError_responses (s : State) (err : BitVec 4) (info : BitVec 16) :
    (s.withError err info).responses = s.responses ++ [⟨err, info, none, none⟩] := rfl

@[simp] theorem State.afterExchange_statusLast (s : State) (sent : List Byte) (x : Byte) (data : List Byte) :
    (s.afterExchange sent x data).statusLast = x := rfl
@[simp] theorem State.afterExchange_statusValid (s : State) (sent : List Byte) (x : Byte) (data : List Byte) :
    (s.afterExchange sent x data).statusValid = true := rfl
@[simp] theorem State.afterExchange_stbPrevRx (s : State) (sent : List Byte) (x : Byte) (data : List Byte) :
    (s.afterExchange sent x data).stbPrevRx = s.stbPrevRx := rfl
@[simp] theorem State.afterExchange_stbValidRx (s : State) (sent : List Byte) (x : Byte) (data : List Byte) :
    (s.afterExchange sent x data).stbValidRx = s.stbValidRx := rfl
@[simp] theorem State.afterExchange_stbPrevTx (s : State) (sent : List Byte) (x : Byte) (data : List Byte) :
    (s.afterExchange sent x data).stbPrevTx = s.stbPrevTx := rfl
@[simp] theorem State.afterExchange_stbValidTx (s : State) (sent : List Byte) (x : Byte) (data : List Byte) :
    (s.afterExchange sent x data).stbValidTx = s.stbValidTx := rfl
@[simp] theorem State.afterExchange_ufSeen (s : State) (sent : List Byte) (x : Byte) (data : List Byte) :
    (s.afterExchange sent x data).ufSeen = s.ufSeen := rfl
@[simp] theorem State.afterExchange_port (s : State) (sent : List Byte) (x : Byte) (data : List Byte) :
    (s.afterExchange sent x data).port = s.port := rfl
@[simp] theorem State.afterExchange_answers (s : State) (sent : List Byte) (x : Byte) (data : List Byte) :
    (s.afterExchange sent x data).answers = s.answers.tail := rfl
@[simp] theorem State.afterExchange_tick (s : State) (sent : List Byte) (x : Byte) (data : List Byte) :
    (s.afterExchange sent x data).tick = s.tick + 1 := rfl
@[simp] theorem State.afterExchange_wire (s : State) (sent : List Byte) (x : Byte) (data : List Byte) :
    (s.afterExchange sent x data).wire = s.wire ++ [⟨sent, some (.received x data)⟩] := rfl
@[simp] theorem State.afterExchange_responses (s : State) (sent : List Byte) (x : Byte) (data : List Byte) :
    (s.afterExchange sent x data).responses = s.responses := rfl

@[simp] theorem State.afterFailure_statusLast (s : State) (sent : List Byte) (e : Nat) :
    (s.afterFailure sent e).statusLast = s.statusLast := rfl
@[simp] theorem State.afterFailure_statusValid (s : State) (sent : List Byte) (e : Nat) :
    (s.afterFailure sent e).statusValid = s.statusValid := rfl
@[simp] theorem State.afterFailure_stbPrevRx (s : State) (sent : List Byte) (e : Nat) :
    (s.afterFailure sent e).stbPrevRx = s.stbPrevRx := rfl
@[simp] theorem State.afterFailure_stbValidRx (s : State) (sent : List Byte) (e : Nat) :
    (s.afterFailure sent e).stbValidRx = s.stbValidRx := rfl
@[simp] theorem State.afterFailure_stbPrevTx (s : State) (sent : List Byte) (e : Nat) :
    (s.afterFailure sent e).stbPrevTx = s.stbPrevTx := rfl
@[simp] theorem State.afterFailure_stbValidTx (s : State) (sent : List Byte) (e : Nat) :
    (s.afterFailure sent e).stbValidTx = s.stbValidTx := rfl
@[simp] theorem State.afterFailure_ufSeen (s : State) (sent : List Byte) (e : Nat) :
    (s.afterFailure sent e).ufSeen = s.ufSeen := rfl
@[simp] theorem State.afterFailure_port (s : State) (sent : List Byte) (e : Nat) :
    (s.afterFailure sent e).port = s.port := rfl
@[simp] theorem State.afterFailure_answers (s : State) (sent : List Byte) (e : Nat) :
    (s.afterFailure sent e).answers = s.answers.tail := rfl
@[simp] theorem State.afterFailure_tick (s : State) (sent : List Byte) (e : Nat) :
    (s.afterFailure sent e).tick = s.tick + 1 := rfl
@[simp] theorem State.afterFailure_wire (s : State) (sent : List Byte) (e : Nat) :
    (s.afterFailure sent e).wire = s.wire ++ [⟨sent, some (.failed e)⟩] := rfl
@[simp] theorem State.afterFailure_responses (s : State) (sent : List Byte) (e : Nat) :
    (s.afterFailure sent e).responses = s.responses ++ [⟨6#4, BitVec.ofNat 16 e, none, some e⟩] := rfl

@[simp] theorem State.clearStb_statusLast (s : State) (d : Dir) :
    (s.clearStb d).statusLast = s.statusLast := by cases d <;> rfl
@[simp] theorem State.clearStb_statusValid (s : State) (d : Dir) :
    (s.clearStb d).statusValid = s.statusValid := by cases d <;> rfl
@[simp] theorem State.clearStb_stbPrevRx (s : State) (d : Dir) :
    (s.clearStb d).stbPrevRx = s.stbPrevRx := by cases d <;> rfl
@[simp] theorem State.clearStb_stbPrevTx (s : State) (d : Dir) :
    (s.clearStb d).stbPrevTx = s.stbPrevTx := by cases d <;> rfl
@[simp] theorem State.clearStb_ufSeen (s : State) (d : Dir) :
    (s.clearStb d).ufSeen = s.ufSeen := by cases d <;> rfl
@[simp] theorem State.clearStb_port (s : State) (d : Dir) :
    (s.clearStb d).port = s.port := by cases d <;> rfl
@[simp] theorem State.clearStb_answers (s : State) (d : Dir) :
    (s.clearStb d).answers = s.answers := by cases d <;> rfl
@[simp] theorem State.clearStb_tick (s : State) (d : Dir) :
    (s.clearStb d).tick = s.tick := by cases d <;> rfl
@[simp] theorem State.clearStb_wire (s : State) (d : Dir) :
    (s.clearStb d).wire = s.wire := by cases d <;> rfl
@[simp] theorem State.clearStb_responses (s : State) (d : Dir) :
    (s.clearStb d).responses = s.responses := by cases d <;> rfl

@[simp] theorem State.setStb_statusLast (s : State) (d : Dir) (c : BitVec 7) :
    (s.setStb d c).statusLast = s.statusLast := by cases d <;> rfl
@[simp] theorem State.setStb_statusValid (s : State) (d : Dir) (c : BitVec 7) :
    (s.setStb d c).statusValid = s.statusValid := by cases d <;> rfl
@[simp] theorem State.setStb_ufSeen (s : State) (d : Dir) (c : BitVec 7) :
    (s.setStb d c).ufSeen = s.ufSeen := by cases d <;> rfl
@[simp] theorem State.setStb_port (s : State) (d : Dir) (c : BitVec 7) :
    (s.setStb d c).port = s.port := by cases d <;> rfl
@[simp] theorem State.setStb_answers (s : State) (d : Dir) (c : BitVec 7) :
    (s.setStb d c).answers = s.answers := by cases d <;> rfl
@[simp] theorem State.setStb_tick (s : State) (d : Dir) (c : BitVec 7) :
    (s.setStb d c).tick = s.tick := by cases d <;> rfl
@[simp] theorem State.setStb_wire (s : State) (d : Dir) (c : BitVec 7) :
    (s.setStb d c).wire = s.wire := by cases d <;> rfl
@[simp] theorem State.setStb_responses (s : State) (d : Dir) (c : BitVec 7) :
    (s.setStb d c).responses = s.responses := by cases d <;> rfl

@[simp] theorem State.noteUnderflow_statusLast (s : State) (d : Dir) (f : Bool) :
    (s.noteUnderflow d f).statusLast = s.statusLast := by
  cases d <;> cases f <;> rfl
@[simp] theorem State.noteUnderflow_statusValid (s : State) (d : Dir) (f : Bool) :
    (s.noteUnderflow d f).statusValid = s.statusValid := by
  cases d <;> cases f <;> rfl
@[simp] theorem State.noteUnderflow_stbPrevRx (s : State) (d : Dir) (f : Bool) :
    (s.noteUnderflow d f).stbPrevRx = s.stbPrevRx := by
  cases d <;> cases f <;> rfl
@[simp] theorem State.noteUnderflow_stbValidRx (s : State) (d : Dir) (f : Bool) :
    (s.noteUnderflow d f).stbValidRx = s.stbValidRx := by
  cases d <;> cases f <;> rfl
@[simp] theorem State.noteUnderflow_stbPrevTx (s : State) (d : Dir) (f : Bool) :
    (s.noteUnderflow d f).stbPrevTx = s.stbPrevTx := by
  cases d <;> cases f <;> rfl
@[simp] theorem State.noteUnderflow_stbValidTx (s : State) (d : Dir) (f : Bool) :
    (s.noteUnderflow d f).stbValidTx = s.stbValidTx := by
  cases d <;> cases f <;> rfl
@[simp] theorem State.noteUnderflow_port (s : State) (d : Dir) (f : Bool) :
    (s.noteUnderflow d f).port = s.port := by
  cases d <;> cases f <;> rfl
@[simp] theorem State.noteUnderflow_answers (s : State) (d : Dir) (f : Bool) :
    (s.noteUnderflow d f).answers = s.answers := by
  cases d <;> cases f <;> rfl
@[simp] theorem State.noteUnderflow_tick (s : State) (d : Dir) (f : Bool) :
    (s.noteUnderflow d f).tick = s.tick := by
  cases d <;> cases f <;> rfl
@[simp] theorem State.noteUnderflow_wire (s : State) (d : Dir) (f : Bool) :
    (s.noteUnderflow d f).wire = s.wire := by
  cases d <;> cases f <;> rfl
@[simp] theorem State.noteUnderflow_responses (s : State) (d : Dir) (f : Bool) :
    (s.noteUnderflow d f).responses = s.responses := by
  cases d <;> cases f <;> rfl

@[simp] theorem State.clearStb_rx_stbValidRx (s : State) : (s.clearStb .rx).stbValidRx = false := rfl
@[simp] theorem State.clearStb_rx_stbValidTx (s : State) : (s.clearStb .rx).stbValidTx = s.stbValidTx := rfl
@[simp] theorem State.clearStb_tx_stbValidRx (s : State) : (s.clearStb .tx).stbValidRx = s.stbValidRx := rfl
@[simp] theorem State.clearStb_tx_stbValidTx (s : State) : (s.clearStb .tx).stbValidTx = false := rfl

@[simp] theorem State.setStb_rx_stbPrevRx (s : State) (c : BitVec 7) : (s.setStb .rx c).stbPrevRx = c := rfl
@[simp] theorem State.setStb_rx_stbValidRx (s : State) (c : BitVec 7) : (s.setStb .rx c).stbValidRx = true := rfl
@[simp] theorem State.setStb_rx_stbPrevTx (s : State) (c : BitVec 7) : (s.setStb .rx c).stbPrevTx = s.stbPrevTx := rfl
@[simp] theorem State.setStb_rx_stbValidTx (s : State) (c : BitVec 7) : (s.setStb .rx c).stbValidTx = s.stbValidTx := rfl
@[simp] theorem State.setStb_tx_stbPrevRx (s : State) (c : BitVec 7) : (s.setStb .tx c).stbPrevRx = s.stbPrevRx := rfl
@[simp] theorem State.setStb_tx_stbValidRx (s : State) (c : BitVec 7) : (s.setStb .tx c).stbValidRx = s.stbValidRx := rfl
@[simp] theorem State.setStb_tx_stbPrevTx (s : State) (c : BitVec 7) : (s.setStb .tx c).stbPrevTx = c := rfl
@[simp] theorem State.setStb_tx_stbValidTx (s : State) (c : BitVec 7) : (s.setStb .tx c).stbValidTx = true := rfl

@[simp] theorem State.noteUnderflow_rx (s : State) (f : Bool) : s.noteUnderflow .rx f = s := rfl
@[simp] theorem State.noteUnderflow_tx_ufSeen (s : State) (f : Bool) :
    (s.noteUnderflow .tx f).ufSeen = (s.ufSeen || f) := by
  cases f <;> simp [State.noteUnderflow]

end Sys2Proof.Machine
end

