-- ==== Sys2Proof/Laws/Ops.lean ====
section
/-! SUPPORT. What each shared operation can do, said once: responding and raising, the transport port, the bus request,
the sample of a byte-count register. -/

namespace Sys2Proof.Machine

theorem respond_eq_withOk (s : State) (d : Result) : s.respond d = s.withOk d := rfl

/-- Any error but a transport error is a plain error response. -/
theorem raise_eq_withError {s : State} {e : Err} (h : e.outOfBand = none) : s.raise e = s.withError e.code e.info := by
  simp [State.raise, State.withError, Response.error, h]

theorem capture_record (s : State) (m : Frame) (x : Byte) (data : List Byte) :
    (s.record m (.received x data)).capture x = s.afterExchange m.bytes x data := rfl

theorem raise_record (s : State) (m : Frame) (e : Nat) :
    (s.record m (.failed e)).raise (.transport e) = s.afterFailure m.bytes e := rfl

@[simp] theorem receivedBytes_length (t i n : Nat) (given : List Byte) :
    (receivedBytes t i n given).length = n := by
  induction n generalizing i given with
  | zero => cases given <;> simp [receivedBytes]
  | succ n ih => cases given <;> simp [receivedBytes, ih]

/-- Bytes listed in full are received as they are. -/
theorem receivedBytes_listed (t i : Nat) (given : List Byte) : receivedBytes t i given.length given = given := by
  induction given generalizing i with
  | nil => simp [receivedBytes]
  | cons x rest ih => simp [receivedBytes, ih]

/-- The data slots that come back are as many as the data slots sent. -/
theorem data_length_of_exchange {s : State} {n : Nat} {x : Byte} {data : List Byte}
    (h : s.exchange n = .received x data) : data.length = n := by
  unfold State.exchange at h
  split at h
  · cases h
  · injection h with _ h2
    simp [← h2]

/-- One data slot sent is one byte received. -/
theorem data_of_exchange_one {s : State} {x : Byte} {data : List Byte} (h : s.exchange 1 = .received x data) :
    ∃ v, data = [v] := List.length_eq_one_iff.mp (data_length_of_exchange h)

/-- A transfer that completes: the state after it, with the status captured, goes on. -/
theorem transact_received {s : State} {m : Frame} {k : List Byte → State → State} {x : Byte} {data : List Byte}
    (h : s.exchange m.body.length = .received x data) :
    s.transact m k = k data (s.afterExchange m.bytes x data) := by
  simp [State.transact, h, capture_record]

/-- A transfer that fails: it stands in the record, `Transport` is raised, and no block register is written. -/
theorem transact_failed {s : State} {m : Frame} {k : List Byte → State → State} {e : Nat}
    (h : s.exchange m.body.length = .failed e) :
    s.transact m k = (s.record m (.failed e)).raise (.transport e) := by
  simp [State.transact, h]

@[simp] theorem busRequest_ok (s : State) (m : Frame) (k : List Byte → State → State) :
    s.busRequest (.ok m) k = s.transact m k := rfl

@[simp] theorem busRequest_error (s : State) (e : Err) (k : List Byte → State → State) :
    s.busRequest (.error e) k = s.raise e := rfl

/-- A bus request is refused before the bus, or fails on it, or goes on with what came back. -/
theorem busRequest_cases (s : State) (a : Except Err Frame) (k : List Byte → State → State) :
    (∃ e, a = .error e ∧ s.busRequest a k = s.raise e) ∨
    (∃ m e, a = .ok m ∧ s.exchange m.body.length = .failed e ∧
      s.busRequest a k = (s.record m (.failed e)).raise (.transport e)) ∨
    (∃ m x data, a = .ok m ∧ s.exchange m.body.length = .received x data ∧
      s.busRequest a k = k data (s.afterExchange m.bytes x data)) := by
  cases a with
  | error e => exact .inl ⟨e, rfl, rfl⟩
  | ok m =>
    cases h : s.exchange m.body.length with
    | failed e => exact .inr (.inl ⟨m, e, rfl, h, transact_failed h⟩)
    | received x data => exact .inr (.inr ⟨m, x, data, rfl, h, transact_received h⟩)

/-- Decoding a MARCSTATE byte raises `InvalidState` or goes on with the state of its code. -/
theorem decodeMarc_cases (s : State) (v : Byte) (k : MarcState → State → State) :
    (marcOfCode (marcCodeOf v) = none ∧ s.decodeMarc v k = s.raise (.invalidState (marcCodeOf v))) ∨
    ∃ st, marcOfCode (marcCodeOf v) = some st ∧ s.decodeMarc v k = k st s := by
  unfold State.decodeMarc
  cases marcOfCode (marcCodeOf v) with
  | none => exact .inl ⟨rfl, rfl⟩
  | some st => exact .inr ⟨st, rfl, rfl⟩

theorem admitUnless_none (m : Frame) : admitUnless none m = .ok m := rfl

theorem admitUnless_some (e : Err) (m : Frame) : admitUnless (some e) m = .error e := rfl

end Sys2Proof.Machine
end

