-- ==== Sys2Proof/Laws/Exec.lean ====
section
/-! SUPPORT. Everything `exec` can do, said once for all instructions: a request without a frame leaves the bus and the
retained status alone; one with a frame fails on the bus, or completes one transaction; each gets one response. -/

namespace Sys2Proof.Machine

/-- A frame's header is one of R74's, never a reserved one (R73). -/
theorem frameOf_header {i : Instr} {m : Frame} (h : frameOf i = some m) : IsFrameHeader m.header.toNat := by
  have read : ∀ (t : BitVec 3) (a : BitVec 6), refError [.config, .status] ⟨t, a⟩ = none →
      IsFrameHeader (headerByte true (if t = Tag.status.code then Config.statusReadBurst else false) a).toNat := by
    decide +kernel
  have write : ∀ (t : BitVec 3) (a : BitVec 6), refError [.config] ⟨t, a⟩ = none →
      IsFrameHeader (headerByte false false a).toNat := by decide +kernel
  have strobe : ∀ (t : BitVec 3) (a : BitVec 6), refError [.strobe] ⟨t, a⟩ = none →
      IsFrameHeader (headerByte false false a).toNat := by decide +kernel
  have admitted : ∀ {e : Option Err} {m m' : Frame}, (admitUnless e m').toOption = some m → e = none ∧ m = m' := by
    intro e m m' h
    cases e <;> simp [admitUnless, Except.toOption] at h
    exact ⟨rfl, h.symm⟩
  cases i
  case regRead r => obtain ⟨ok, rfl⟩ := admitted h; exact read r.tag r.addr ok
  case regWrite r _ => obtain ⟨ok, rfl⟩ := admitted h; exact write r.tag r.addr ok
  case strobe r => obtain ⟨ok, rfl⟩ := admitted h; exact strobe r.tag r.addr ok
  case fifoRead => obtain ⟨_, rfl⟩ := admitted h; show IsFrameHeader 0xFF; simp [IsFrameHeader]
  case fifoWrite => obtain ⟨_, rfl⟩ := admitted h; show IsFrameHeader 0x7F; simp [IsFrameHeader]
  case patableRead => obtain ⟨_, rfl⟩ := admitted h; show IsFrameHeader 0xFE; simp [IsFrameHeader]
  case patableWrite => obtain ⟨_, rfl⟩ := admitted h; show IsFrameHeader 0x7E; simp [IsFrameHeader]
  case msMatch => obtain ⟨_, rfl⟩ := admitted h; show IsFrameHeader 0xF5; simp [IsFrameHeader]
  case msRead => cases h; show IsFrameHeader 0xF5; simp [IsFrameHeader]
  case fifoPoll d => cases h; cases d <;> (simp only [statusReadFrame, fifoBytesAddr]; decide +kernel)
  case stableStep d => cases h; cases d <;> (simp only [statusReadFrame, fifoBytesAddr]; decide +kernel)
  all_goals cases h

/-- Any response to a success is legal. -/
theorem legal_ok (d : Result) : (Response.ok d).Legal := by simp [Response.Legal, Response.ok]

/-- Any error response is legal. -/
theorem legal_error (e : Err) : (Response.error e).Legal := by
  cases e <;> simp [Response.Legal, Response.error, Err.code, Err.outOfBand]

/-- What `exec i s` does: `t` is the state it leaves but for the response `r`, which is delivered last. -/
inductive ExecCases (i : Instr) (s : State) : Prop where
  /-- No transaction: not a bus request, or one refused before the bus. -/
  | quiet (t : State) (r : Response) (hf : frameOf i = none)
      (h : exec i s = .next { t with responses := s.responses ++ [r] }) (hr : r.Legal)
      (ht : t.wire = s.wire ∧ t.answers = s.answers ∧ t.tick = s.tick ∧ t.statusLast = s.statusLast ∧
        t.statusValid = s.statusValid ∧ t.port = s.port)
  /-- The transaction fails. -/
  | failed (m : Frame) (e : Nat) (hf : frameOf i = some m) (hx : s.exchange m.body.length = .failed e)
      (h : exec i s = .next ((s.record m (.failed e)).raise (.transport e)))
  /-- The transaction completes. -/
  | received (m : Frame) (x : Byte) (d : List Byte) (t : State) (r : Response) (hf : frameOf i = some m)
      (hx : s.exchange m.body.length = .received x d)
      (h : exec i s = .next { t with responses := s.responses ++ [r] }) (hr : r.Legal)
      (ht : t.wire = s.wire ++ [⟨m.bytes, some (.received x d)⟩] ∧ t.answers = s.answers.tail ∧ t.tick = s.tick + 1 ∧
        t.statusLast = x ∧ t.statusValid = true ∧ t.port = s.port)

/-- A bus request, from what its continuation does. -/
theorem ExecCases.bus {i : Instr} {s : State} {a : Except Err Frame} {k : List Byte → State → State}
    (hex : exec i s = .next (s.busRequest a k)) (hf : frameOf i = a.toOption)
    (hk : ∀ (d : List Byte) (u : State), ∃ (t : State) (r : Response),
      k d u = { t with responses := u.responses ++ [r] } ∧ r.Legal ∧ t.wire = u.wire ∧ t.answers = u.answers ∧
        t.tick = u.tick ∧ t.statusLast = u.statusLast ∧ t.statusValid = u.statusValid ∧ t.port = u.port) :
    ExecCases i s := by
  rcases busRequest_cases s a k with ⟨e, rfl, h⟩ | ⟨m, e, rfl, hx, h⟩ | ⟨m, x, d, rfl, hx, h⟩
  · exact .quiet s (.error e) hf (by rw [hex, h]; rfl) (legal_error e) ⟨rfl, rfl, rfl, rfl, rfl, rfl⟩
  · exact .failed m e hf hx (by rw [hex, h])
  · obtain ⟨t, r, hk, hr, ht⟩ := hk d (s.afterExchange m.bytes x d)
    refine .received m x d t r hf hx (by rw [hex, h, hk]; rfl) hr ?_
    simpa using ht

/-- Every instruction does one of the three. -/
theorem exec_cases (i : Instr) (s : State) : ExecCases i s := by
  have same : s.wire = s.wire ∧ s.answers = s.answers ∧ s.tick = s.tick ∧ s.statusLast = s.statusLast ∧
      s.statusValid = s.statusValid ∧ s.port = s.port := ⟨rfl, rfl, rfl, rfl, rfl, rfl⟩
  cases i
  case regRead r => exact .bus rfl rfl fun d u => ⟨u, _, rfl, legal_ok _, rfl, rfl, rfl, rfl, rfl, rfl⟩
  case regWrite r v => exact .bus rfl rfl fun d u => ⟨u, _, rfl, legal_ok _, rfl, rfl, rfl, rfl, rfl, rfl⟩
  case strobe r => exact .bus rfl rfl fun d u => ⟨u, _, rfl, legal_ok _, rfl, rfl, rfl, rfl, rfl, rfl⟩
  case fifoRead n => exact .bus rfl rfl fun d u => ⟨u, _, rfl, legal_ok _, rfl, rfl, rfl, rfl, rfl, rfl⟩
  case fifoWrite n => exact .bus rfl rfl fun d u => ⟨u, _, rfl, legal_ok _, rfl, rfl, rfl, rfl, rfl, rfl⟩
  case patableRead n => exact .bus rfl rfl fun d u => ⟨u, _, rfl, legal_ok _, rfl, rfl, rfl, rfl, rfl, rfl⟩
  case patableWrite n => exact .bus rfl rfl fun d u => ⟨u, _, rfl, legal_ok _, rfl, rfl, rfl, rfl, rfl, rfl⟩
  case msRead =>
    refine .bus rfl rfl fun d u => ?_
    rcases decodeMarc_cases u (d.headD 0x00#8) (fun st u => u.respond (.mstate st)) with ⟨_, h⟩ | ⟨st, _, h⟩
    · exact ⟨u, _, h, legal_error _, rfl, rfl, rfl, rfl, rfl, rfl⟩
    · exact ⟨u, _, h, legal_ok _, rfl, rfl, rfl, rfl, rfl, rfl⟩
  case msMatch tgt =>
    refine .bus rfl rfl fun d u => ?_
    rcases decodeMarc_cases u (d.headD 0x00#8) (fun st u => u.respond (.matched (st.code = tgt) st)) with ⟨_, h⟩ | ⟨st, _, h⟩
    · exact ⟨u, _, h, legal_error _, rfl, rfl, rfl, rfl, rfl, rfl⟩
    · exact ⟨u, _, h, legal_ok _, rfl, rfl, rfl, rfl, rfl, rfl⟩
  case fifoPoll d =>
    refine .bus rfl rfl fun dd u =>
      ⟨u.noteUnderflow d (fifoFaultOf (dd.headD 0x00#8)), .ok (.fifoCount (fifoCountOf (dd.headD 0x00#8)) (fifoFaultOf (dd.headD 0x00#8))), ?_, legal_ok _, ?_⟩
    · show State.respond _ _ = _
      simp [State.respond]
    · simp
  case stableStep d =>
    refine .bus rfl rfl fun dd u => ?_
    show ∃ t r, u.judgeSample d (fifoCountOf (dd.headD 0x00#8)) (fifoFaultOf (dd.headD 0x00#8)) = _ ∧ _
    generalize fifoCountOf (dd.headD 0x00#8) = c
    generalize fifoFaultOf (dd.headD 0x00#8) = f
    unfold State.judgeSample
    split
    · exact ⟨(u.noteUnderflow d f).clearStb d, .error (faultError d c), by simp [State.raise], legal_error _, by simp⟩
    · split
      · exact ⟨u.clearStb d, .ok (.stable true c), by simp [State.respond], legal_ok _, by simp⟩
      · exact ⟨u.setStb d c, .ok (.stable false c), by simp [State.respond], legal_ok _, by simp⟩
  case msDec v =>
    rcases decodeMarc_cases s v (fun st u => u.respond (.mstate st)) with ⟨_, h⟩ | ⟨st, _, h⟩
    · exact .quiet s (.error (.invalidState (marcCodeOf v))) rfl (by show Host.Outcome.next (s.decodeMarc v _) = _; rw [h]; rfl) (legal_error _) same
    · exact .quiet s (.ok (.mstate st)) rfl (by show Host.Outcome.next (s.decodeMarc v _) = _; rw [h]; rfl) (legal_ok _) same
  case stableStart d =>
    exact .quiet (s.clearStb d) (.ok .none) rfl (by simp [exec, execStableStart, State.respond]) (legal_ok _) (by simp)
  case fieldGet v off w =>
    by_cases h : w.toNat = 0 ∨ off.toNat + w.toNat > 8
    · exact .quiet s _ rfl (by simp only [exec, execFieldGet, fieldError, h, if_true]; rfl) (legal_error _) same
    · exact .quiet s _ rfl (by simp only [exec, execFieldGet, fieldError, h, if_false]; rfl) (legal_ok _) same
  case fieldSet v off w x =>
    by_cases h : w.toNat = 0 ∨ off.toNat + w.toNat > 8
    · exact .quiet s _ rfl (by simp only [exec, execFieldSet, fieldError, h, if_true]; rfl) (legal_error _) same
    · by_cases h2 : x.toNat ≥ 2 ^ w.toNat
      · exact .quiet s _ rfl (by simp only [exec, execFieldSet, fieldError, insertError, h, h2, if_true, if_false]; rfl) (legal_error _) same
      · exact .quiet s _ rfl (by simp only [exec, execFieldSet, fieldError, insertError, h, h2, if_false]; rfl) (legal_ok _) same
  case freqEnc hz =>
    by_cases h : freqWord hz ≥ 2 ^ Config.freqBits
    · exact .quiet s _ rfl (by simp only [exec, execFreqEnc, h, if_true]; rfl) (legal_error _) same
    · exact .quiet s _ rfl (by simp only [exec, execFreqEnc, h, if_false]; rfl) (legal_ok _) same
  case drateEnc b =>
    cases h : drateGrid b with
    | none => exact .quiet s _ rfl (by simp only [exec, execDrateEnc, h]; rfl) (legal_error _) same
    | some p => exact .quiet s _ rfl (by simp only [exec, execDrateEnc, h]; rfl) (legal_ok _) same
  case devEnc b =>
    cases h : devGrid b with
    | none => exact .quiet s _ rfl (by simp only [exec, execDevEnc, h]; rfl) (legal_error _) same
    | some p => exact .quiet s _ rfl (by simp only [exec, execDevEnc, h]; rfl) (legal_ok _) same
  case chbwEnc hz =>
    by_cases h : 32 * hz.toNat > Config.fxosc
    · exact .quiet s _ rfl (by simp only [exec, execChbwEnc, h, if_true]; rfl) (legal_error _) same
    · exact .quiet s _ rfl (by simp only [exec, execChbwEnc, h, if_false]; rfl) (legal_ok _) same
  case rxOutcome ov lqi len =>
    cases ov
    · by_cases h : crcFailed lqi = true
      · exact .quiet s (.error (.crcMismatch lqi)) rfl (by simp [exec, execRxOutcome, h, State.raise]) (legal_error _) same
      · exact .quiet s (.ok (.length len)) rfl (by simp [exec, execRxOutcome, h, State.respond]) (legal_ok _) same
    · exact .quiet s _ rfl rfl (legal_error (.rxOverflow 0)) same
  case txOutcome =>
    by_cases h : s.ufSeen = true
    · exact .quiet (s.setUfSeen false) (.error (.txUnderflow 0)) rfl (by simp [exec, execTxOutcome, h, State.raise]) (legal_error _) (by simp)
    · exact .quiet (s.setUfSeen false) (.ok .none) rfl (by simp [exec, execTxOutcome, h, State.respond]) (legal_ok _) (by simp)
  case ufClear => exact .quiet (s.setUfSeen false) (.ok .none) rfl rfl (legal_ok _) (by simp)
  case txFrame a p =>
    by_cases h : p.length + 2 > Config.fifoCap
    · exact .quiet s _ rfl (by simp only [exec, execTxFrame, h, if_true]; rfl) (legal_error _) same
    · exact .quiet s _ rfl (by simp only [exec, execTxFrame, h, if_false]; rfl) (legal_ok _) same
  case rxFrame b =>
    by_cases h : b.length > Config.fifoCap
    · exact .quiet s _ rfl (by simp only [exec, execRxFrame, h, if_true]; rfl) (legal_error _) same
    · match b, h with
      | [], h => exact .quiet s _ rfl (by simp only [exec, execRxFrame, h, if_false]; rfl) (legal_error _) same
      | [_], h => exact .quiet s _ rfl (by simp only [exec, execRxFrame, h, if_false]; rfl) (legal_error _) same
      | _ :: _ :: _, h => exact .quiet s _ rfl (by simp only [exec, execRxFrame, h, if_false]; rfl) (legal_ok _) same
  all_goals exact .quiet s _ rfl rfl (legal_ok _) same

end Sys2Proof.Machine
end

