-- ==== Sys2Proof/Laws/PerInstr.lean ====
section
/-! SUPPORT. Per-instruction laws. `TableRow`: the first byte of a well-formed instruction's port item carries the fixed
bits of its row of spec/opcode_table.json ("match" under "mask"). -/

namespace Sys2Proof.Laws.TableRow

/-- The "mask" of the instruction's row. -/
def mask (i : Instr) : Byte :=
  match i with
  | .hdrEnc _ _ _ => 0xFF#8
  | .hdrDec _ => 0xFF#8
  | .statusDec _ => 0xFF#8
  | .statusGet => 0xFF#8
  | .fieldGet _ _ _ => 0xFF#8
  | .fieldSet _ _ _ _ => 0xFF#8
  | .regRead _ => 0xFF#8
  | .regWrite _ _ => 0xFF#8
  | .strobe _ => 0xFF#8
  | .fifoRead _ => 0xFF#8
  | .fifoWrite _ => 0xFF#8
  | .patableRead _ => 0xFF#8
  | .patableWrite _ => 0xFF#8
  | .freqEnc _ => 0xFF#8
  | .freqDec _ _ _ => 0xFF#8
  | .drateEnc _ => 0xFF#8
  | .drateDec _ _ => 0xFF#8
  | .devEnc _ => 0xFF#8
  | .devDec _ _ => 0xFF#8
  | .chbwEnc _ => 0xFF#8
  | .chbwDec _ _ => 0xFF#8
  | .rssiDbm _ => 0xFF#8
  | .msDec _ => 0xFF#8
  | .msRead => 0xFF#8
  | .msMatch _ => 0xFF#8
  | .fifoDec _ => 0xFF#8
  | .fifoPoll _ => 0xFF#8
  | .stableStart _ => 0xFF#8
  | .stableStep _ => 0xFF#8
  | .crcDec _ => 0xFF#8
  | .rxOutcome _ _ _ => 0xFF#8
  | .txOutcome => 0xFF#8
  | .txFrame _ _ => 0xFF#8
  | .rxFrame _ => 0xFF#8
  | .ufClear => 0xFF#8
  | .hdrConfigReadSingle _ => 0xC0#8
  | .hdrConfigWriteSingle _ => 0xC0#8
  | .hdrConfigReadBurst _ => 0xC0#8
  | .hdrConfigWriteBurst _ => 0xC0#8
  | .hdrStatusRead _ => 0xC0#8
  | .hdrStrobe _ _ => 0x40#8
  | .hdrPatable _ _ => 0x3F#8
  | .hdrRxfifo _ => 0xBF#8
  | .hdrTxfifo _ => 0xBF#8
  | .hdrReserved2F _ _ => 0x3F#8
  | .hdrReserved37 _ => 0x7F#8
  | .hdrReservedWriteBurstStatus _ => 0xC0#8

/-- The "match" of the instruction's row. -/
def fixedBits (i : Instr) : Byte :=
  match i with
  | .hdrEnc _ _ _ => 0x01#8
  | .hdrDec _ => 0x02#8
  | .statusDec _ => 0x03#8
  | .statusGet => 0x04#8
  | .fieldGet _ _ _ => 0x05#8
  | .fieldSet _ _ _ _ => 0x06#8
  | .regRead _ => 0x10#8
  | .regWrite _ _ => 0x11#8
  | .strobe _ => 0x12#8
  | .fifoRead _ => 0x13#8
  | .fifoWrite _ => 0x14#8
  | .patableRead _ => 0x15#8
  | .patableWrite _ => 0x16#8
  | .freqEnc _ => 0x20#8
  | .freqDec _ _ _ => 0x21#8
  | .drateEnc _ => 0x22#8
  | .drateDec _ _ => 0x23#8
  | .devEnc _ => 0x24#8
  | .devDec _ _ => 0x25#8
  | .chbwEnc _ => 0x26#8
  | .chbwDec _ _ => 0x27#8
  | .rssiDbm _ => 0x28#8
  | .msDec _ => 0x30#8
  | .msRead => 0x31#8
  | .msMatch _ => 0x32#8
  | .fifoDec _ => 0x33#8
  | .fifoPoll _ => 0x34#8
  | .stableStart _ => 0x35#8
  | .stableStep _ => 0x36#8
  | .crcDec _ => 0x37#8
  | .rxOutcome _ _ _ => 0x38#8
  | .txOutcome => 0x39#8
  | .txFrame _ _ => 0x3A#8
  | .rxFrame _ => 0x3B#8
  | .ufClear => 0x3C#8
  | .hdrConfigReadSingle _ => 0x80#8
  | .hdrConfigWriteSingle _ => 0x00#8
  | .hdrConfigReadBurst _ => 0xC0#8
  | .hdrConfigWriteBurst _ => 0x40#8
  | .hdrStatusRead _ => 0xC0#8
  | .hdrStrobe _ _ => 0x00#8
  | .hdrPatable _ _ => 0x3E#8
  | .hdrRxfifo _ => 0xBF#8
  | .hdrTxfifo _ => 0x3F#8
  | .hdrReserved2F _ _ => 0x2F#8
  | .hdrReserved37 _ => 0x37#8
  | .hdrReservedWriteBurstStatus _ => 0x40#8

/-- The first byte of a port item: a request's opcode, or the header. -/
def firstByte (x : PortInput) : Byte :=
  match x with
  | .request op _ => op
  | .header h => h
  | .rst => 0#8
  | .rstDuring op _ => op

def Statement (i : Instr) : Prop := i.wellFormed = true → firstByte (encodeInput i) &&& mask i = fixedBits i

/-- A request's opcode is its row's "match", under the mask of the whole byte. -/
theorem of_request {i : Instr} {op : Byte} {xs : List Byte} (henc : encodeInput i = .request op xs)
    (hmask : mask i = 0xFF#8) (hfixed : fixedBits i = op) : Statement i := by
  intro _
  rw [henc, hmask, hfixed]
  exact BitVec.and_allOnes

/-- A header byte under a mask of its two control bits. -/
theorem header_control (rw b : Bool) (a : BitVec 6) : Machine.headerByte rw b a &&& 0xC0#8 = Machine.headerByte rw b 0#6 := by
  revert rw b a
  decide +kernel

theorem hdrEnc (rw b : Bool) (a : BitVec 6) : Statement (.hdrEnc rw b a) :=
  of_request rfl rfl rfl

theorem hdrDec (h : Byte) : Statement (.hdrDec h) :=
  of_request rfl rfl rfl

theorem statusDec (s : Byte) : Statement (.statusDec s) :=
  of_request rfl rfl rfl

theorem statusGet : Statement (.statusGet) :=
  of_request rfl rfl rfl

theorem fieldGet (v : Byte) (off : BitVec 3) (w : BitVec 4) : Statement (.fieldGet v off w) :=
  of_request rfl rfl rfl

theorem fieldSet (v : Byte) (off : BitVec 3) (w : BitVec 4) (x : Byte) : Statement (.fieldSet v off w x) :=
  of_request rfl rfl rfl

theorem regRead (r : Ref) : Statement (.regRead r) :=
  of_request rfl rfl rfl

theorem regWrite (r : Ref) (value : Byte) : Statement (.regWrite r value) :=
  of_request rfl rfl rfl

theorem strobe (r : Ref) : Statement (.strobe r) :=
  of_request rfl rfl rfl

theorem fifoRead (n : BitVec 8) : Statement (.fifoRead n) :=
  of_request rfl rfl rfl

theorem fifoWrite (data : List Byte) : Statement (.fifoWrite data) :=
  of_request rfl rfl rfl

theorem patableRead (n : BitVec 8) : Statement (.patableRead n) :=
  of_request rfl rfl rfl

theorem patableWrite (data : List Byte) : Statement (.patableWrite data) :=
  of_request rfl rfl rfl

theorem freqEnc (hz : BitVec 32) : Statement (.freqEnc hz) :=
  of_request rfl rfl rfl

theorem freqDec (f2 f1 f0 : Byte) : Statement (.freqDec f2 f1 f0) :=
  of_request rfl rfl rfl

theorem drateEnc (baud : BitVec 32) : Statement (.drateEnc baud) :=
  of_request rfl rfl rfl

theorem drateDec (m : BitVec 8) (e : BitVec 4) : Statement (.drateDec m e) :=
  of_request rfl rfl rfl

theorem devEnc (hz : BitVec 32) : Statement (.devEnc hz) :=
  of_request rfl rfl rfl

theorem devDec (m e : BitVec 3) : Statement (.devDec m e) :=
  of_request rfl rfl rfl

theorem chbwEnc (hz : BitVec 32) : Statement (.chbwEnc hz) :=
  of_request rfl rfl rfl

theorem chbwDec (m e : BitVec 2) : Statement (.chbwDec m e) :=
  of_request rfl rfl rfl

theorem rssiDbm (raw : Byte) : Statement (.rssiDbm raw) :=
  of_request rfl rfl rfl

theorem msDec (v : Byte) : Statement (.msDec v) :=
  of_request rfl rfl rfl

theorem msRead : Statement (.msRead) :=
  of_request rfl rfl rfl

theorem msMatch (target : BitVec 5) : Statement (.msMatch target) :=
  of_request rfl rfl rfl

theorem fifoDec (v : Byte) : Statement (.fifoDec v) :=
  of_request rfl rfl rfl

theorem fifoPoll (d : Dir) : Statement (.fifoPoll d) :=
  of_request rfl rfl rfl

theorem stableStart (d : Dir) : Statement (.stableStart d) :=
  of_request rfl rfl rfl

theorem stableStep (d : Dir) : Statement (.stableStep d) :=
  of_request rfl rfl rfl

theorem crcDec (lqi : Byte) : Statement (.crcDec lqi) :=
  of_request rfl rfl rfl

theorem rxOutcome (ov : Bool) (lqi len : Byte) : Statement (.rxOutcome ov lqi len) :=
  of_request rfl rfl rfl

theorem txOutcome : Statement (.txOutcome) :=
  of_request rfl rfl rfl

theorem txFrame (addr : Byte) (payload : List Byte) : Statement (.txFrame addr payload) :=
  of_request rfl rfl rfl

theorem rxFrame (buf : List Byte) : Statement (.rxFrame buf) :=
  of_request rfl rfl rfl

theorem ufClear : Statement (.ufClear) :=
  of_request rfl rfl rfl

theorem hdrConfigReadSingle (a : BitVec 6) : Statement (.hdrConfigReadSingle a) := fun _ => header_control _ _ a

theorem hdrConfigWriteSingle (a : BitVec 6) : Statement (.hdrConfigWriteSingle a) := fun _ => header_control _ _ a

theorem hdrConfigReadBurst (a : BitVec 6) : Statement (.hdrConfigReadBurst a) := fun _ => header_control _ _ a

theorem hdrConfigWriteBurst (a : BitVec 6) : Statement (.hdrConfigWriteBurst a) := fun _ => header_control _ _ a

theorem hdrStatusRead (a : BitVec 6) : Statement (.hdrStatusRead a) := fun _ => header_control _ _ a

theorem hdrStrobe (r : Bool) (a : BitVec 6) : Statement (.hdrStrobe r a) := by
  intro _
  revert r a
  decide +kernel

theorem hdrPatable (r b : Bool) : Statement (.hdrPatable r b) := by
  intro _
  revert r b
  decide +kernel

theorem hdrRxfifo (b : Bool) : Statement (.hdrRxfifo b) := by
  intro _
  revert b
  decide +kernel

theorem hdrTxfifo (b : Bool) : Statement (.hdrTxfifo b) := by
  intro _
  revert b
  decide +kernel

theorem hdrReserved2F (r b : Bool) : Statement (.hdrReserved2F r b) := by
  intro _
  revert r b
  decide +kernel

theorem hdrReserved37 (r : Bool) : Statement (.hdrReserved37 r) := by
  intro _
  revert r
  decide +kernel

theorem hdrReservedWriteBurstStatus (a : BitVec 6) : Statement (.hdrReservedWriteBurstStatus a) := fun _ => header_control _ _ a

end Sys2Proof.Laws.TableRow
end

