-- ==== Sys2Proof/Tests/Slice0.lean ====
section
/-! SUPPORT. Tests. The expected values are the spec's: 95_test_vectors.md (cited by section), the encodings of
30_encoding.md written out by hand, and the bounds of the rules cited. A `test_witness_…` theorem shows a state and
operands that meet the hypotheses of the obligation it names. -/

namespace Sys2Proof.Tests

set_option Elab.async false

open Sys2Proof.Machine

/-- The reset state, with the chip's answers still to come. -/
def chip (l : List Answer) : State := { State.reset with answers := l }

/-- The reset state, with one item on the port. -/
def onPort (x : PortInput) : State := { State.reset with port := [x] }

/-- The state after an instruction. -/
def after (i : Instr) (s : State) : Option State :=
  match exec i s with
  | .next t => some t
  | .fault _ => none
  | .refused _ => none

theorem exec_of_after {i : Instr} {s t : State} (h : after i s = some t) : exec i s = .next t := by
  unfold after at h
  split at h
  · cases h
    assumption
  · cases h
  · cases h

/-- The state after a step. -/
def afterStep (s : State) : Option State :=
  match step s with
  | .next t => some t
  | .fault _ => none
  | .refused _ => none

/-- The last response after an instruction. -/
def answer (i : Instr) (s : State) : Option Response := (after i s).bind fun t => t.responses.getLast?

/-- The bytes of each transaction after an instruction. -/
def sent (i : Instr) (s : State) : Option (List (List Byte)) := (after i s).map fun t => t.wire.map fun w => w.sent

/-- The retained status after an instruction. -/
def retained (i : Instr) (s : State) : Option (Bool × Byte) := (after i s).map fun t => (t.statusValid, t.statusLast)

/-- The OK response with these fields (R26). -/
def ok (d : Result) : Option Response := some ⟨0, 0, some d, none⟩

/-- The error response with this code and detail (R26). -/
def err (code : BitVec 4) (info : BitVec 16) : Option Response := some ⟨code, info, none, none⟩

/-! ### WellFormed: a term each check refuses -/

/-- R77: n is a u8, so 256 bytes cannot be written down. -/
theorem test_wellFormed_refuses_long_lists :
    (Instr.fifoWrite (List.replicate 256 0#8)).wellFormed = false ∧
    (Instr.patableWrite (List.replicate 256 0#8)).wellFormed = false ∧
    (Instr.txFrame 0 (List.replicate 256 0#8)).wellFormed = false ∧
    (Instr.rxFrame (List.replicate 256 0#8)).wellFormed = false := by decide +kernel

/-- R72: each header row's own addresses. -/
theorem test_wellFormed_refuses_addresses :
    (Instr.hdrConfigReadSingle 0x2F).wellFormed = false ∧ (Instr.hdrConfigWriteSingle 0x30).wellFormed = false ∧
    (Instr.hdrConfigReadBurst 0x3F).wellFormed = false ∧ (Instr.hdrConfigWriteBurst 0x2F).wellFormed = false ∧
    (Instr.hdrStatusRead 0x2F).wellFormed = false ∧ (Instr.hdrStatusRead 0x3E).wellFormed = false ∧
    (Instr.hdrStrobe false 0x37).wellFormed = false ∧ (Instr.hdrStrobe true 0x3E).wellFormed = false ∧
    (Instr.hdrReservedWriteBurstStatus 0x2F).wellFormed = false ∧
    (Instr.hdrReservedWriteBurstStatus 0x3E).wellFormed = false := by decide +kernel

/-- The longest lists and the bounds of the address ranges are well formed. -/
theorem test_wellFormed_accepts_bounds :
    (Instr.fifoWrite (List.replicate 255 0#8)).wellFormed = true ∧ (Instr.rxFrame []).wellFormed = true ∧
    (Instr.hdrConfigReadSingle 0x2E).wellFormed = true ∧ (Instr.hdrStatusRead 0x37).wellFormed = true ∧
    (Instr.hdrStrobe false 0x30).wellFormed = true ∧ (Instr.hdrReservedWriteBurstStatus 0x3D).wellFormed = true := by
  decide +kernel

/-! ### Decoding: opcodes and fields written out from R77 and R80 -/

theorem test_decode_header_and_field_requests :
    decodeInput (.request 0b00000001#8 [0b1#8, 0b0#8, 0b110101#8]) = .run (.hdrEnc true false 0x35) ∧
    decodeInput (.request 0b00000010#8 [0b11110101#8]) = .run (.hdrDec 0xF5) ∧
    decodeInput (.request 0b00000011#8 [0b00011111#8]) = .run (.statusDec 0x1F) ∧
    decodeInput (.request 0b00000100#8 []) = .run .statusGet ∧
    decodeInput (.request 0b00000101#8 [0b10001100#8, 0b110#8, 0b0010#8]) = .run (.fieldGet 0x8C 6 2) ∧
    decodeInput (.request 0b00000110#8 [0b10001100#8, 0b000#8, 0b0100#8, 0b1010#8]) =
      .run (.fieldSet 0x8C 0 4 10) := by decide +kernel

/-- The encodings of 95_test_vectors.md P1, P2a, P3a. -/
theorem test_decode_bus_requests :
    decodeInput (.request 0b00010000#8 [0b000#8, 0b001110#8]) = .run (.regRead ⟨0, 0x0E⟩) ∧
    decodeInput (.request 0b00010001#8 [0b000#8, 0b001101#8, 0b00010000#8]) = .run (.regWrite ⟨0, 0x0D⟩ 0x10) ∧
    decodeInput (.request 0b00010010#8 [0b010#8, 0b111010#8]) = .run (.strobe ⟨2, 0x3A⟩) ∧
    decodeInput (.request 0b00010011#8 [0b00000100#8]) = .run (.fifoRead 4) ∧
    decodeInput (.request 0b00010100#8 [4#8, 0x02#8, 0x01#8, 0xAA#8, 0xBB#8]) =
      .run (.fifoWrite [0x02, 0x01, 0xAA, 0xBB]) ∧
    decodeInput (.request 0b00010101#8 [0b00001001#8]) = .run (.patableRead 9) ∧
    decodeInput (.request 0b00010110#8 [2#8, 0x00#8, 0xC0#8]) = .run (.patableWrite [0x00, 0xC0]) := by decide +kernel

theorem test_decode_converter_requests :
    decodeInput (.request 0b00100000#8 [0x00#8, 0x06#8, 0x0D#8, 0xB8#8]) = .run (.freqEnc 396728) ∧
    decodeInput (.request 0b00100001#8 [0x10#8, 0xB0#8, 0x71#8]) = .run (.freqDec 0x10 0xB0 0x71) ∧
    decodeInput (.request 0b00100010#8 [0x00#8, 0x00#8, 0x96#8, 0x00#8]) = .run (.drateEnc 38400) ∧
    decodeInput (.request 0b00100011#8 [0b10000011#8, 0b1010#8]) = .run (.drateDec 131 10) ∧
    decodeInput (.request 0b00100100#8 [0x00#8, 0x00#8, 0x05#8, 0xD0#8]) = .run (.devEnc 1488) ∧
    decodeInput (.request 0b00100101#8 [0b111#8, 0b100#8]) = .run (.devDec 7 4) ∧
    decodeInput (.request 0b00100110#8 [0x00#8, 0x0C#8, 0x65#8, 0xD4#8]) = .run (.chbwEnc 812500) ∧
    decodeInput (.request 0b00100111#8 [0b01#8, 0b10#8]) = .run (.chbwDec 1 2) ∧
    decodeInput (.request 0b00101000#8 [0b10000000#8]) = .run (.rssiDbm 0x80) := by decide +kernel

theorem test_decode_monitor_requests :
    decodeInput (.request 0b00110000#8 [0b11111111#8]) = .run (.msDec 0xFF) ∧
    decodeInput (.request 0b00110001#8 []) = .run .msRead ∧
    decodeInput (.request 0b00110010#8 [0b00001#8]) = .run (.msMatch 1) ∧
    decodeInput (.request 0b00110011#8 [0b10000011#8]) = .run (.fifoDec 0x83) ∧
    decodeInput (.request 0b00110100#8 [0b1#8]) = .run (.fifoPoll .tx) ∧
    decodeInput (.request 0b00110101#8 [0b0#8]) = .run (.stableStart .rx) ∧
    decodeInput (.request 0b00110110#8 [0b1#8]) = .run (.stableStep .tx) := by decide +kernel

theorem test_decode_outcome_requests :
    decodeInput (.request 0b00110111#8 [0b10000000#8]) = .run (.crcDec 0x80) ∧
    decodeInput (.request 0b00111000#8 [0b0#8, 0x2F#8, 0x02#8]) = .run (.rxOutcome false 0x2F 2) ∧
    decodeInput (.request 0b00111001#8 []) = .run .txOutcome ∧
    decodeInput (.request 0b00111010#8 [0x01#8, 2#8, 0xAA#8, 0xBB#8]) = .run (.txFrame 1 [0xAA, 0xBB]) ∧
    decodeInput (.request 0b00111011#8 [2#8, 0x00#8, 0x09#8]) = .run (.rxFrame [0x00, 0x09]) ∧
    decodeInput (.request 0b00111100#8 []) = .run .ufClear := by decide +kernel

/-- R70: bit 7 is RW, bit 6 is B, bits 5:0 the address. -/
theorem test_decode_headers :
    decodeInput (.header 0b10001101#8) = .run (.hdrConfigReadSingle 0x0D) ∧
    decodeInput (.header 0b00001101#8) = .run (.hdrConfigWriteSingle 0x0D) ∧
    decodeInput (.header 0b11001101#8) = .run (.hdrConfigReadBurst 0x0D) ∧
    decodeInput (.header 0b01001101#8) = .run (.hdrConfigWriteBurst 0x0D) ∧
    decodeInput (.header 0b11110101#8) = .run (.hdrStatusRead 0x35) ∧
    decodeInput (.header 0b10110101#8) = .run (.hdrStrobe true 0x35) ∧
    decodeInput (.header 0b01111110#8) = .run (.hdrPatable false true) ∧
    decodeInput (.header 0b11111111#8) = .run (.hdrRxfifo true) ∧
    decodeInput (.header 0b00111111#8) = .run (.hdrTxfifo false) ∧
    decodeInput (.header 0b10101111#8) = .run (.hdrReserved2F true false) ∧
    decodeInput (.header 0b00110111#8) = .run (.hdrReserved37 false) ∧
    decodeInput (.header 0b01110101#8) = .run (.hdrReservedWriteBurstStatus 0x35) := by decide +kernel

/-- R76, R78: a reserved opcode is a request; bytes that are no typed fields are not. -/
theorem test_decode_refuses :
    decodeInput (.request 0x07#8 [0x01#8]) = .reserved 0x07 ∧
    decodeInput (.request 0x10#8 [0x00#8]) = .malformed .operandMissing ∧
    decodeInput (.request 0x10#8 [0x08#8, 0x00#8]) = .malformed .operandTooWide ∧
    decodeInput (.request 0x14#8 [0x03#8, 0x01#8, 0x02#8]) = .malformed .operandMissing ∧
    decodeInput (.request 0x04#8 [0x00#8]) = .malformed .operandExtra ∧
    decodeInput (.rstDuring 0x31#8 []) = .abandon .msRead := by decide +kernel

/-- Table words: the opcode in bits 7:0, the fields from bit 8 on; a header byte alone. -/
theorem test_table_words :
    decodeTableWord 24 0x0E0010 = some (.regRead ⟨0, 0x0E⟩) ∧ decodeTableWord 8 0x31 = some .msRead ∧
    decodeTableWord 8 0xF5 = some (.hdrStatusRead 0x35) ∧ decodeTableWord 8 0x80 = some (.hdrConfigReadSingle 0) ∧
    decodeTableWord 8 0x14 = some (.fifoWrite []) := by decide +kernel

/-- The word placed is the next step's instruction: FIFO_DEC 0x83. -/
theorem test_withFetchWord :
    (afterStep (State.reset.withFetchWord 16 0x8333)).bind (fun t => t.responses.getLast?) =
      ok (.fifoCount 3 true) := by decide +kernel

/-- R30 to R34: the names of the listings. -/
theorem test_register_names :
    refNamed "FREQ2" = some ⟨0, 0x0D⟩ ∧ refNamed "TEST0" = some ⟨0, 0x2E⟩ ∧ refNamed "MARCSTATE" = some ⟨1, 0x35⟩ ∧
    refNamed "LQI" = some ⟨1, 0x33⟩ ∧ refNamed "SRX" = some ⟨2, 0x34⟩ ∧ refNamed "SNOP" = some ⟨2, 0x3D⟩ ∧
    regMap.length = 76 := by decide +kernel

/-- R117: every field of the catalogue is a legal operand of the multiplexer. -/
theorem test_field_catalogue : ∀ f ∈ fieldCatalogue, fieldError f.off f.w = none := by decide +kernel

/-! ### Header codec, status, fields (sections 2.1, 2.3) -/

theorem test_hdrEnc : answer (.hdrEnc true false 0x2F) (chip []) = ok (.header 0xAF) := by decide +kernel

theorem test_hdrDec :
    answer (.hdrDec 0xF5) (chip []) = ok (.headerFields true true 0x35 .status) ∧
    answer (.hdrDec 0xB7) (chip []) = ok (.headerFields true false 0x37 .reserved) := by decide +kernel

theorem test_statusDec : answer (.statusDec 0x8F) (chip []) = ok (.statusFields 8 15 true 0 15) := by decide +kernel

theorem test_statusGet :
    answer .statusGet (chip []) = ok (.status false 0x00) ∧
    ((after .msRead (chip [.reply [0x01, 0x0D]])).bind (answer .statusGet)) = ok (.status true 0x01) := by
  decide +kernel

theorem test_fieldGet :
    answer (.fieldGet 0x47 4 3) (chip []) = ok (.field 4) ∧ answer (.fieldGet 0 7 2) (chip []) = err 8 0x0272 := by
  decide +kernel

theorem test_fieldSet :
    answer (.fieldSet 0x8C 0 4 10) (chip []) = ok (.field 0x8A) ∧
    answer (.fieldSet 0 0 2 4) (chip []) = err 8 0x0304 := by decide +kernel

/-! ### Transactions (section 2.2) -/

theorem test_regRead_status :
    answer (.regRead ⟨1, 0x35⟩) (chip [.reply [0x01, 0x0D]]) = ok (.value 0x0D) ∧
    sent (.regRead ⟨1, 0x35⟩) (chip [.reply [0x01, 0x0D]]) = some [[0xF5, 0x00]] ∧
    retained (.regRead ⟨1, 0x35⟩) (chip [.reply [0x01, 0x0D]]) = some (true, 0x01) := by decide +kernel

theorem test_regRead_fails :
    answer (.regRead ⟨0, 0x0F⟩) (chip [.fail 3]) = some ⟨6, 3, none, some 3⟩ ∧
    retained (.regRead ⟨0, 0x0F⟩) (chip [.fail 3]) = some (false, 0) ∧
    answer (.regRead ⟨0, 0x2F⟩) (chip []) = err 8 0x082F ∧
    answer (.regRead ⟨3, 0x3F⟩) (chip []) = err 8 0x0103 := by decide +kernel

theorem test_regWrite :
    sent (.regWrite ⟨0, 0x0D⟩ 0x10) (chip [.reply [0x0F, 0x0F]]) = some [[0x0D, 0x10]] ∧
    answer (.regWrite ⟨1, 0x35⟩ 0) (chip []) = err 8 0x0101 := by decide +kernel

theorem test_strobe :
    sent (.strobe ⟨2, 0x30⟩) (chip [.reply [0x8F]]) = some [[0x30]] ∧
    answer (.strobe ⟨0, 0x0D⟩) (chip []) = err 8 0x0100 := by decide +kernel

theorem test_fifoRead :
    answer (.fifoRead 2) (chip [.reply [0x12, 0x05, 0x07]]) = ok (.data [0x05, 0x07]) ∧
    sent (.fifoRead 2) (chip [.reply [0x12, 0x05, 0x07]]) = some [[0xFF, 0x00, 0x00]] ∧
    answer (.fifoRead 65) (chip []) = err 5 0x0041 := by decide +kernel

theorem test_fifoWrite :
    sent (.fifoWrite [0x55]) (chip [.reply [0x0F, 0x0E]]) = some [[0x7F, 0x55]] ∧
    sent (.fifoWrite (List.replicate 65 0)) (chip [.fail 1]) = some [] := by decide +kernel

/-- With no byte to transfer, no capacity refuses. -/
theorem test_patable :
    sent (.patableRead 0) (chip [.reply [0x0F]]) = some [[0xFE]] ∧
    sent (.patableWrite []) (chip [.reply [0x0F]]) = some [[0x7E]] := by decide +kernel

/-! ### Unit converters (section 2.4) -/

theorem test_freqEnc :
    answer (.freqEnc 433920000) (chip []) = ok (.freq 0x10B071 0x10 0xB0 0x71) ∧
    answer (.freqEnc 1663999801) (chip []) = ok (.freq 0x3FFFFF 0x3F 0xFF 0xFF) ∧
    answer (.freqEnc 1663999802) (chip []) = err 7 0x0020 := by decide +kernel

theorem test_freqDec : answer (.freqDec 0xFF 0xFF 0xFF) (chip []) = ok (.rat 436207590000000 65536) := by
  decide +kernel

theorem test_drateEnc :
    answer (.drateEnc 38400) (chip []) = ok (.drate 131 10) ∧ answer (.drateEnc 50733) (chip []) = ok (.drate 0 11) ∧
    answer (.drateEnc 24) (chip []) = err 7 0x0022 := by decide +kernel

theorem test_drateDec : answer (.drateDec 131 10) (chip []) = ok (.rat 10303488000000 268435456) := by decide +kernel

theorem test_devEnc :
    answer (.devEnc 12298) (chip []) = ok (.dev 7 2) ∧ answer (.devEnc 12299) (chip []) = ok (.dev 0 3) ∧
    answer (.devEnc 1487) (chip []) = err 7 0x0024 := by decide +kernel

theorem test_devDec : answer (.devDec 7 4) (chip []) = ok (.rat 6240000000 131072) := by decide +kernel

theorem test_chbwEnc :
    answer (.chbwEnc 203125) (chip []) = ok (.chbw 0 2) ∧ answer (.chbwEnc 203126) (chip []) = ok (.chbw 3 1) ∧
    answer (.chbwEnc 812501) (chip []) = err 7 0x0026 := by decide +kernel

theorem test_chbwDec : answer (.chbwDec 0 2) (chip []) = ok (.rat 26000000 128) := by decide +kernel

/-- The vectors of the two offsets the spec tabulates; the model's offset stays open. -/
theorem test_rssi :
    (rssiDbm2 74 0x80).toInt = -276 ∧ (rssiDbm2 74 0x30).toInt = -100 ∧ (rssiDbm2 255 0x80).toInt = -638 ∧
    rssiDbm2 0 0x7F = 127 := by decide +kernel

/-! ### Status monitor and outcomes (section 2.5) -/

theorem test_msDec :
    answer (.msDec 0xF6) (chip []) = ok (.mstate .txfifoUnderflow) ∧
    answer (.msDec 0x17) (chip []) = err 4 0x0017 := by decide +kernel

theorem test_msRead :
    answer .msRead (chip [.reply [0x01, 0x1F]]) = err 4 0x001F ∧
    retained .msRead (chip [.reply [0x01, 0x1F]]) = some (true, 0x01) := by decide +kernel

theorem test_msMatch :
    answer (.msMatch 1) (chip [.reply [0x1F, 0x0D]]) = ok (.matched false .rx) ∧
    answer (.msMatch 0x1F) (chip [.fail 1]) = err 8 0x061F := by decide +kernel

theorem test_fifoDec : answer (.fifoDec 0x83) (chip []) = ok (.fifoCount 3 true) := by decide +kernel

theorem test_fifoPoll :
    sent (.fifoPoll .tx) (chip [.reply [0x7F, 0x80]]) = some [[0xFA, 0x00]] ∧
    (after (.fifoPoll .tx) (chip [.reply [0x7F, 0x80]])).map (fun t => t.ufSeen) = some true ∧
    (after (.fifoPoll .rx) (chip [.reply [0x6F, 0xC0]])).map (fun t => t.ufSeen) = some false := by decide +kernel

theorem test_stableStart :
    (after (.stableStart .rx) { chip [] with stbValidRx := true, stbValidTx := true }).map
      (fun t => (t.stbValidRx, t.stbValidTx)) = some (false, true) := by decide +kernel

theorem test_stableStep_rx :
    answer (.stableStep .rx) { chip [.reply [0x10, 0x03]] with stbValidRx := true, stbPrevRx := 3 } =
      ok (.stable true 3) ∧
    answer (.stableStep .rx) { chip [.reply [0x10, 0x00]] with stbValidRx := true, stbPrevRx := 0 } =
      ok (.stable false 0) := by decide +kernel

theorem test_stableStep_tx :
    answer (.stableStep .tx) (chip [.reply [0x70, 0x85]]) = err 1 0x0005 ∧
    (after (.stableStep .tx) (chip [.reply [0x70, 0x85]])).map (fun t => (t.ufSeen, t.stbValidTx)) =
      some (true, false) := by decide +kernel

theorem test_crcDec : answer (.crcDec 0xFF) (chip []) = ok (.crc true 0x7F) := by decide +kernel

theorem test_rxOutcome :
    answer (.rxOutcome true 0x80 2) (chip []) = err 2 0x0000 ∧
    answer (.rxOutcome false 0x80 2) (chip []) = err 3 0x0080 := by decide +kernel

theorem test_txOutcome :
    answer .txOutcome { chip [] with ufSeen := true } = err 1 0x0000 ∧
    (after .txOutcome { chip [] with ufSeen := true }).map (fun t => t.ufSeen) = some false := by decide +kernel

theorem test_txFrame :
    answer (.txFrame 0x01 [0xAA, 0xBB]) (chip []) = ok (.frame [0x02, 0x01, 0xAA, 0xBB]) ∧
    answer (.txFrame 0x07 (List.replicate 63 0)) (chip []) = err 5 0x0041 := by decide +kernel

theorem test_rxFrame :
    answer (.rxFrame [0x3C, 0x01, 0x00]) (chip []) = ok (.framePrefix 0x3C 0x01) ∧
    answer (.rxFrame [0x02]) (chip []) = err 5 0x0001 := by decide +kernel

theorem test_ufClear :
    (after .ufClear { chip [] with ufSeen := true }).map (fun t => t.ufSeen) = some false := by decide +kernel

/-! ### Wire headers (R72; section 2.1) -/

theorem test_wire_headers :
    answer (.hdrConfigReadSingle 0x2E) (chip []) = ok (.headerFields true false 0x2E .config) ∧
    answer (.hdrStrobe true 0x3D) (chip []) = ok (.headerFields true false 0x3D .strobe) ∧
    answer (.hdrRxfifo false) (chip []) = ok (.headerFields true false 0x3F .rxfifo) ∧
    answer (.hdrReservedWriteBurstStatus 0x35) (chip []) = ok (.headerFields false true 0x35 .reserved) := by
  decide +kernel

/-! ### Steps -/

theorem test_step_stops :
    step State.reset = .fault .noRequest ∧ step (onPort (.request 0x31#8 [0#8])) = .refused (.malformedRequest .operandExtra) :=
  ⟨rfl, rfl⟩

/-- R28: the request in progress gets no response and the valid bits are cleared. -/
theorem test_step_reset :
    (afterStep { onPort (.rstDuring 0x31#8 []) with statusValid := true, ufSeen := true }).map
      (fun t => (t.statusValid, t.ufSeen, t.responses)) = some (false, false, []) := by decide +kernel

/-! ### Witnesses: for each obligation with hypotheses, a state and operands that meet them, clause by clause -/

/-- A chip that answers two bytes to the next transaction, and one whose transport fails with value 3. -/
def twoBytes : State := chip [.reply [0x0F, 0xC4]]
def failing : State := chip [.fail 3]

theorem test_witness_DecodeOfEncodeIsTheInstruction :
    (Instr.txFrame 0x01 (List.replicate 255 0)).wellFormed = true ∧ (Instr.hdrStatusRead 0x3D).wellFormed = true := by
  decide +kernel

theorem test_witness_DecodedInputIsItsOneEncoding :
    decodeInput (.request 0x32#8 [0x1F#8]) = .run (.msMatch 0x1F) ∧
    decodeInput (.header 0x3D#8) = .run (.hdrStrobe false 0x3D) := by decide +kernel

theorem test_witness_StepRunsTheDecodedInstruction :
    (onPort (.request 0x31#8 [])).port = .request 0x31#8 [] :: [] ∧ decodeInput (.request 0x31#8 []) = .run .msRead := by
  decide +kernel

theorem test_witness_ReservedOpcodeIsRefused :
    (onPort (.request 0x07#8 [])).port = .request 0x07#8 [] :: [] ∧
    ∀ op ∈ [0x07#8, 0x00#8, 0x0F#8, 0x17#8, 0x1F#8, 0x29#8, 0x2F#8, 0x3D#8, 0xFF#8], ¬ IsOpcode op.toNat := by
  decide +kernel

theorem test_witness_PresentableInputIsExecuted :
    ∀ x ∈ [PortInput.request 0x31#8 [], .request 0x07#8 [], .header 0xF5#8, .rst, .rstDuring 0x31#8 []],
      (onPort x).port = x :: [] ∧ Presentable x := by
  intro x hx
  fin_cases hx <;> exact ⟨rfl, fun why h => nomatch why, h⟩

theorem test_witness_OneTransactionPerFrame :
    frameOf .msRead = some ⟨0xF5, [0x00]⟩ ∧ frameOf (.fifoRead 64) ≠ none ∧ frameOf (.fifoRead 65) = none ∧
    frameOf .statusGet = none ∧ failing.exchange [0x00#8].length = .failed 3 := by decide +kernel

theorem test_witness_ResetInputResetsTheRegisters : (onPort .rst).port = .rst :: [] := rfl

theorem test_witness_ResetAbandonsTheRequest :
    ∀ x ∈ [PortInput.rstDuring 0x31#8 [], .rstDuring 0x04#8 [], .rstDuring 0x07#8 []],
      (onPort x).port = x :: [] ∧ Presentable x := by
  intro x hx
  fin_cases hx <;> exact ⟨rfl, fun why h => nomatch why, h⟩

theorem test_witness_WireHeaderRowsAnswerTheirClass :
    (∀ a ∈ [0x00#6, 0x2E#6], a.toNat ≤ 0x2E) ∧
    (∀ a ∈ [0x30#6, 0x37#6, 0x3D#6], 0x30 ≤ a.toNat ∧ a.toNat ≤ 0x3D) ∧
    (∀ a ∈ [0x30#6, 0x36#6, 0x38#6, 0x3D#6], 0x30 ≤ a.toNat ∧ a.toNat ≤ 0x3D ∧ a.toNat ≠ 0x37) := by decide +kernel

theorem test_witness_StatusGetReportsTheRetainedByte :
    (chip []).statusValid = false ∧ ({ chip [] with statusValid := true }).statusValid = true := by decide +kernel

theorem test_witness_FieldGetExtractsTheField :
    (∀ p ∈ [(0#3, 8#4), (7#3, 1#4)], 1 ≤ p.2.toNat ∧ p.1.toNat + p.2.toNat ≤ 8) ∧
    (∀ p ∈ [(0#3, 0#4), (7#3, 2#4), (0#3, 9#4)], p.2.toNat = 0 ∨ 8 < p.1.toNat + p.2.toNat) := by decide +kernel

theorem test_witness_FieldSetInsertsTheField :
    (1 ≤ (8#4).toNat ∧ (0#3).toNat + (8#4).toNat ≤ 8 ∧ (0xFF#8).toNat < 2 ^ (8#4).toNat) ∧
    ((1#4).toNat = 0 ∨ 8 < (7#3).toNat + (2#4).toNat) ∧
    (1 ≤ (1#4).toNat ∧ (7#3).toNat + (1#4).toNat ≤ 8 ∧ 2 ^ (1#4).toNat ≤ (2#8).toNat) := by decide +kernel

theorem test_witness_FieldGetReadsBackFieldSet :
    exec (.fieldSet 0x8C 0 4 10) (chip []) = .next ((chip []).withOk (.field 0x8A)) :=
  exec_of_after (by decide +kernel)

theorem test_witness_ExchangeFollowsTheTransport :
    twoBytes.exchange 1 = .received 0x0F [0xC4] ∧ twoBytes.answers = .reply (0x0F :: [0xC4]) :: [] ∧ failing.answers = .fail 3 :: [] := ⟨rfl, rfl, rfl⟩

theorem test_witness_RegReadReturnsTheReceivedByte :
    twoBytes.exchange 1 = .received 0x0F [0xC4] ∧ failing.exchange 1 = .failed 3 ∧ IsConfigRef ⟨0, 0x2E⟩ ∧
    IsStatusRef ⟨1, 0x30⟩ ∧ IsStatusRef ⟨1, 0x3D⟩ ∧ (IsMappedRef ⟨2, 0x34⟩ ∧ 2 ≤ (2#3).toNat) := by decide +kernel

theorem test_witness_RegWriteSendsTheValue :
    twoBytes.exchange 1 = .received 0x0F [0xC4] ∧ failing.exchange 1 = .failed 3 ∧ IsConfigRef ⟨0, 0x00⟩ ∧
    IsConfigRef ⟨0, 0x2E⟩ ∧ (IsMappedRef ⟨1, 0x35⟩ ∧ 1 ≤ (1#3).toNat) := by decide +kernel

theorem test_witness_StrobeSendsOneByte :
    (chip [.reply [0x8F]]).exchange 0 = .received 0x8F [] ∧ failing.exchange 0 = .failed 3 ∧ IsStrobeRef ⟨2, 0x30⟩ ∧
    IsStrobeRef ⟨2, 0x3D⟩ ∧ (IsMappedRef ⟨3, 0x3F⟩ ∧ (3#3).toNat ≠ 2) := by decide +kernel

/-- The references just outside the ranges, and a tag that does not exist. -/
theorem test_witness_UnmappedReferenceIsRefused :
    ∀ r ∈ [(⟨0, 0x2F⟩ : Ref), ⟨1, 0x2F⟩, ⟨1, 0x3E⟩, ⟨2, 0x37⟩, ⟨3, 0x3E⟩, ⟨7, 0x00⟩], ¬ IsMappedRef r := by
  decide +kernel

theorem test_witness_FifoReadReturnsTheReceivedBytes :
    ((64#8).toNat ≤ 64 ∧
      (chip [.reply (List.replicate 65 0)]).exchange (64#8).toNat = .received 0 (List.replicate 64 0)) ∧
    failing.exchange (64#8).toNat = .failed 3 ∧ 64 < (65#8).toNat := by decide +kernel

theorem test_witness_FifoWriteSendsTheData :
    ((List.replicate 64 0x55#8).length ≤ 64 ∧
      (chip [.reply (List.replicate 65 0)]).exchange (List.replicate 64 0x55#8).length =
        .received 0 (List.replicate 64 0)) ∧
    failing.exchange (List.replicate 64 0x55#8).length = .failed 3 ∧ 64 < (List.replicate 65 0x55#8).length := by decide +kernel

theorem test_witness_EveryTransactionCapturesTheStatus :
    frameOf .msRead = some ⟨0xF5, [0x00]⟩ ∧ twoBytes.exchange [0x00#8].length = .received 0x0F [0xC4] := by
  decide +kernel

theorem test_witness_FreqEncRoundsToTheWord :
    (1663999801#32).toNat ≤ 1663999801 ∧ 1663999801 < (1663999802#32).toNat := by decide +kernel

theorem test_witness_DrateEncGivesTheNearestPoint :
    (25 ≤ (25#32).toNat ∧ (25#32).toNat ≤ 1623413) ∧ (25 ≤ (1623413#32).toNat ∧ (1623413#32).toNat ≤ 1623413) ∧
    (24#32).toNat ≤ 24 ∧ 1623414 ≤ (1623414#32).toNat := by decide +kernel

theorem test_witness_DevEncGivesTheNearestPoint :
    (1488 ≤ (1488#32).toNat ∧ (1488#32).toNat ≤ 393554) ∧ (1488 ≤ (393554#32).toNat ∧ (393554#32).toNat ≤ 393554) ∧
    (1487#32).toNat ≤ 1487 ∧ 393555 ≤ (393555#32).toNat := by decide +kernel

theorem test_witness_ChbwEncGivesTheNarrowestWideEnough :
    (812500#32).toNat ≤ 812500 ∧ 812500 < (812501#32).toNat := by decide +kernel

theorem test_witness_GridsAreStrictlyOrdered :
    exec (.drateDec 255 0) (chip []) = .next ((chip []).withOk (.rat 13286000000 268435456)) ∧
    exec (.drateDec 0 1) (chip []) = .next ((chip []).withOk (.rat 13312000000 268435456)) ∧
    exec (.devDec 7 0) (chip []) = .next ((chip []).withOk (.rat 390000000 131072)) ∧
    exec (.devDec 0 1) (chip []) = .next ((chip []).withOk (.rat 416000000 131072)) ∧
    exec (.chbwDec 3 0) (chip []) = .next ((chip []).withOk (.rat 26000000 56)) ∧
    exec (.chbwDec 0 1) (chip []) = .next ((chip []).withOk (.rat 26000000 64)) :=
  ⟨exec_of_after (by decide +kernel), exec_of_after (by decide +kernel), exec_of_after (by decide +kernel),
    exec_of_after (by decide +kernel), exec_of_after (by decide +kernel), exec_of_after (by decide +kernel)⟩

theorem test_witness_ConvertersRoundTrip :
    exec (.freqEnc 26000000) (chip []) = .next ((chip []).withOk (.freq 0x10000 0x01 0x00 0x00)) ∧
    exec (.freqDec 0x01 0x00 0x00) (chip []) = .next ((chip []).withOk (.rat 1703936000000 65536)) ∧
    exec (.drateEnc 25) (chip []) = .next ((chip []).withOk (.drate 2 0)) ∧
    exec (.drateDec 2 0) (chip []) = .next ((chip []).withOk (.rat 6708000000 268435456)) ∧
    exec (.devEnc 1488) (chip []) = .next ((chip []).withOk (.dev 0 0)) ∧
    exec (.devDec 0 0) (chip []) = .next ((chip []).withOk (.rat 208000000 131072)) ∧
    exec (.chbwEnc 812500) (chip []) = .next ((chip []).withOk (.chbw 0 0)) ∧
    exec (.chbwDec 0 0) (chip []) = .next ((chip []).withOk (.rat 26000000 32)) :=
  ⟨exec_of_after (by decide +kernel), exec_of_after (by decide +kernel), exec_of_after (by decide +kernel),
    exec_of_after (by decide +kernel), exec_of_after (by decide +kernel), exec_of_after (by decide +kernel),
    exec_of_after (by decide +kernel), exec_of_after (by decide +kernel)⟩

/-- Each encoder at 100 000 and at 325 000, both of which all four accept. -/
theorem test_witness_EncodersAreMonotone :
    (100000#32).toNat ≤ (325000#32).toNat ∧
    exec (.freqEnc 100000) (chip []) = .next ((chip []).withOk (.freq 252 0x00 0x00 0xFC)) ∧
    exec (.freqEnc 325000) (chip []) = .next ((chip []).withOk (.freq 819 0x00 0x03 0x33)) ∧
    exec (.drateEnc 100000) (chip []) = .next ((chip []).withOk (.drate 248 11)) ∧
    exec (.drateEnc 325000) (chip []) = .next ((chip []).withOk (.drate 154 13)) ∧
    exec (.devEnc 100000) (chip []) = .next ((chip []).withOk (.dev 0 6)) ∧
    exec (.devEnc 325000) (chip []) = .next ((chip []).withOk (.dev 5 7)) ∧
    exec (.chbwEnc 100000) (chip []) = .next ((chip []).withOk (.chbw 0 3)) ∧
    exec (.chbwEnc 325000) (chip []) = .next ((chip []).withOk (.chbw 1 1)) :=
  ⟨by decide, exec_of_after (by decide +kernel), exec_of_after (by decide +kernel),
    exec_of_after (by decide +kernel), exec_of_after (by decide +kernel), exec_of_after (by decide +kernel),
    exec_of_after (by decide +kernel), exec_of_after (by decide +kernel), exec_of_after (by decide +kernel)⟩

theorem test_witness_RssiDbmIsTheSignedByteLessTheOffset :
    (0x80#8).toInt < (0x7F#8).toInt ∧
    exec (.rssiDbm 0x7F) (chip []) = .next ((chip []).withOk (.rssi (rssiDbm2 Config.rssiOffset 0x7F))) :=
  ⟨by decide, rfl⟩

theorem test_witness_MsDecDecodesTheCode :
    (0xF6#8).toNat % 32 ≤ 0x16 ∧ 0x16 < (0x17#8).toNat % 32 := by decide +kernel

/-- A chip that answers with a known code, and one that answers with an unknown one. -/
theorem test_witness_MsReadDecodesMarcstate :
    failing.exchange 1 = .failed 3 ∧
    (chip [.reply [0x01, 0x16]]).exchange 1 = .received 0x01 [0x16] ∧ (0x16#8).toNat % 32 ≤ 0x16 ∧
    (chip [.reply [0x01, 0x17]]).exchange 1 = .received 0x01 [0x17] ∧ 0x16 < (0x17#8).toNat % 32 := by decide +kernel

theorem test_witness_MsMatchComparesOneRead :
    failing.exchange 1 = .failed 3 ∧
    0x16 < (0x17#5).toNat ∧ (0x16#5).toNat ≤ 0x16 ∧
    (chip [.reply [0x01, 0x16]]).exchange 1 = .received 0x01 [0x16] ∧
    (chip [.reply [0x01, 0x17]]).exchange 1 = .received 0x01 [0x17] := by decide +kernel

theorem test_witness_FifoPollReportsTheCount :
    failing.exchange 1 = .failed 3 ∧
    (chip [.reply [0x13, 0x7F]]).exchange 1 = .received 0x13 [0x7F] ∧
    (chip [.reply [0x7F, 0x80]]).exchange 1 = .received 0x7F [0x80] := by decide +kernel

theorem test_witness_StableStepJudgesTheSample :
    failing.exchange 1 = .failed 3 ∧
    (chip [.reply [0x13, 0x7F]]).exchange 1 = .received 0x13 [0x7F] ∧
    (chip [.reply [0x7F, 0x80]]).exchange 1 = .received 0x7F [0x80] := by decide +kernel

theorem test_witness_StableWaitEndsOnTwoEqualSamples :
    (awaitFifoStable .rx 2 (chip [.reply [0x13, 0x03], .reply [0x13, 0x03]])).2 = .done 3 ∧
    (awaitFifoStable .tx 2 (chip [.reply [0x2D, 0x7F], .reply [0x2D, 0x7F]])).2 = .done 0x7F := by decide +kernel

theorem test_witness_RxOutcomeChecksOverflowThenCrc : 128 ≤ (0x80#8).toNat ∧ (0x7F#8).toNat < 128 := by decide +kernel

theorem test_witness_TxOutcomeReadsAndClearsTheTracker :
    ({ chip [] with ufSeen := true }).ufSeen = true ∧ (chip []).ufSeen = false := by decide +kernel

theorem test_witness_FramesAreBuiltAndParsed :
    (List.replicate 62 0#8).length ≤ 62 ∧ 62 < (List.replicate 63 0#8).length ∧
    ([0x00#8, 0x09#8] = [0x00, 0x09] ++ [] ∧ [0x00#8, 0x09#8].length ≤ 64) ∧ [0x02#8].length < 2 ∧
    64 < (List.replicate 65 0#8).length := by decide +kernel

theorem test_witness_RegModifyReadsThenWrites :
    IsConfigRef ⟨0, 0x10⟩ ∧ twoBytes.exchange 1 = .received 0x0F [0xC4] ∧ failing.exchange 1 = .failed 3 := by
  decide +kernel

/-- P3a and P3b: a transmit that ends well, and one that reports the underflow. -/
theorem test_witness_TransmitFlushesBeforeItsOutcome :
    (transmit 0x01 [0xAA] 1 (chip [.reply [0x0F, 0x0F, 0x0F, 0x0F], .reply [0x0B], .reply [0x00, 0x01],
      .reply [0x0F, 0x00], .reply [0x0F]])).2 = .done () ∧
    (transmit 0x01 [0xAA] 1 (chip [.reply [0x0F, 0x0F, 0x0F, 0x0F], .reply [0x0B], .reply [0x20, 0x13],
      .reply [0x70, 0x80], .reply [0x7F]])).2 = .failed ⟨1, 0, none, none⟩ := by decide +kernel

/-- P2a, P2b and P2c: a packet, `CrcMismatch` and `RxOverflow`. -/
theorem test_witness_ReceiveFlushesBeforeItsOutcome :
    (receive 4 2 (chip [.reply [0x13, 0x03], .reply [0x13, 0x03], .reply [0x13, 0x02, 0x01, 0xCC, 0xDD],
      .reply [0x10, 0x2F], .reply [0x00, 0x01], .reply [0x0F]])).2 = .done ⟨2, 1, [0x02, 0x01, 0xCC, 0xDD]⟩ ∧
    (receive 4 2 (chip [.reply [0x13, 0x03], .reply [0x13, 0x03], .reply [0x13, 0x02, 0x01, 0xCC, 0xDD],
      .reply [0x10, 0x80], .reply [0x00, 0x01], .reply [0x0F]])).2 = .failed ⟨3, 0x80, none, none⟩ ∧
    (receive 4 2 (chip [.reply [0x6F, 0xC0], .reply [0x0F]])).2 = .failed ⟨2, 0, none, none⟩ := by decide +kernel

/-- The host sequences of R82 and R253 end well: SET_FIELD as in P4, and Idle then Receive. -/
theorem test_sequences :
    ((setField ⟨0, 0x10⟩ 0 4 10 (chip [.reply [0x0F, 0x8C], .reply [0x0F, 0x0F]])).1.wire.map fun w => w.sent) =
      [[0x90, 0x00], [0x10, 0x8A]] ∧
    ((setRadioMode .receive 1 (chip [.reply [0x0F], .reply [0x0F, 0x01], .reply [0x0F], .reply [0x1F, 0x0D]])).1.wire.map
      fun w => w.sent) = [[0x36], [0xF5, 0x00], [0x34], [0xF5, 0x00]] := by decide +kernel

/-- A state in which a status byte, an underflow and two samples have been read, each of which is on the wire, and a
request is waiting. -/
def midRun : State :=
  { State.reset with
    statusLast := 0x7F, statusValid := true, ufSeen := true, stbPrevRx := 3, stbValidRx := true
    stbPrevTx := 0, stbValidTx := true
    wire := [⟨[0xFB, 0x00], some (.received 0x13 [0x03])⟩, ⟨[0xFA, 0x00], some (.received 0x0F [0x00])⟩,
      ⟨[0xFA, 0x00], some (.received 0x7F [0x80])⟩]
    port := [.request 0x36#8 [0x00#8]], answers := [.reply [0x13, 0x03]]
    responses := [⟨0, 0, some .none, none⟩] }

/-- The hypotheses of the five `StepKeeps…` statements at once. -/
theorem test_witness_StepKeeps : midRun.Inv ∧ (afterStep midRun).isSome = true := by
  refine ⟨⟨?_, ?_, ?_, ?_, ?_⟩, by decide +kernel⟩
  · simp [State.ResponsesLegal, midRun, Response.Legal]
  · simp [State.WireLegal, midRun, WireRecord.Legal, IsFrameHeader]
  · exact fun _ => ⟨midRun.wire.take 2, _, [], [0x80], rfl, rfl, by simp⟩
  · exact fun _ => ⟨⟨[0xFA, 0x00], some (.received 0x7F [0x80])⟩, by simp [midRun], _, _, rfl, rfl, by decide⟩
  · exact ⟨fun _ => ⟨⟨[0xFB, 0x00], some (.received 0x13 [0x03])⟩, by simp [midRun], _, _, rfl, rfl, by decide⟩,
      fun _ => ⟨⟨[0xFA, 0x00], some (.received 0x0F [0x00])⟩, by simp [midRun], _, _, rfl, rfl, by decide⟩⟩

end Sys2Proof.Tests
end

section
/-! SUPPORT and PROOFS for 41_access_protocol.md. First the bytes as numbers and the error details; then the frame or
the refusal of each bus request; then what a bus request that only answers its data does (`AnswersFrame`), from which every
transaction statement follows. -/

namespace Sys2Proof.Machine

/-! ### Bytes as numbers -/

/-- The header byte, written as a number (R70). -/
theorem headerByte_eq_ofNat (rw b : Bool) (a : BitVec 6) :
    headerByte rw b a = BitVec.ofNat 8 (128 * bitNat rw + 64 * bitNat b + a.toNat) := by
  rw [← headerByte_toNat, BitVec.ofNat_toNat, BitVec.setWidth_eq]

/-- Bit 7 of a byte is set exactly from 128 on. -/
theorem getLsbD_seven_eq (x : Byte) : x.getLsbD 7 = decide (128 ≤ x.toNat) := x.msb_eq_decide

theorem getLsbD_six_eq (x : Byte) : x.getLsbD 6 = decide (x.toNat / 64 % 2 = 1) :=
  Nat.testBit_eq_decide_div_mod_eq

/-- The `n` bits of a byte from bit `k` on. -/
theorem extractLsb'_eq_ofNat_div (x : Byte) (k n : Nat) : x.extractLsb' k n = BitVec.ofNat n (x.toNat / 2 ^ k) := by
  rw [← Nat.shiftRight_eq_div_pow]
  rfl

theorem extractLsb'_eq_ofNat_mod (x : Byte) (k n : Nat) :
    x.extractLsb' k n = BitVec.ofNat n (x.toNat / 2 ^ k % 2 ^ n) := by
  apply BitVec.eq_of_toNat_eq
  simp [Nat.shiftRight_eq_div_pow]

/-- The low `n` bits of a byte. -/
theorem extractLsb'_zero_eq_ofNat_mod (x : Byte) (n : Nat) : x.extractLsb' 0 n = BitVec.ofNat n (x.toNat % 2 ^ n) := by
  rw [extractLsb'_eq_ofNat_mod, Nat.pow_zero, Nat.div_one]

/-- LQI bit 7 = 1 means the CRC failed (R181). -/
theorem crcFailed_eq (lqi : Byte) : crcFailed lqi = decide (128 ≤ lqi.toNat) := by
  rw [crcFailed, getLsbD_seven_eq, Config.crcFailLevel, beq_true]

/-- The extracted field in numbers (R113). -/
theorem fieldExtract_eq_ofNat (v : Byte) (off : BitVec 3) {w : BitVec 4} (hw : w.toNat ≤ 8) :
    fieldExtract v off w = BitVec.ofNat 8 (v.toNat / 2 ^ off.toNat % 2 ^ w.toNat) := by
  have hpos : 0 < 2 ^ w.toNat := Nat.two_pow_pos _
  have hle : 2 ^ w.toNat ≤ 2 ^ 8 := Nat.pow_le_pow_right (by decide) hw
  have hmask : (2 ^ w.toNat - 1) % 2 ^ 8 = 2 ^ w.toNat - 1 := Nat.mod_eq_of_lt (by omega)
  have hlt := Nat.mod_lt (v.toNat / 2 ^ off.toNat) hpos
  apply BitVec.eq_of_toNat_eq
  rw [fieldExtract, BitVec.toNat_and, BitVec.toNat_ushiftRight, BitVec.toNat_ofNat, BitVec.toNat_ofNat, hmask,
    Nat.and_two_pow_sub_one_eq_mod, Nat.shiftRight_eq_div_pow,
    Nat.mod_eq_of_lt (hlt.trans_le hle)]

/-! ### The refusals before the bus -/

/-- Detail 0x02ow (R212). -/
theorem raise_badField (s : State) (off : BitVec 3) (w : BitVec 4) :
    s.raise (.illegalRequest (.badField off w)) =
      s.withError 8 (BitVec.ofNat 16 (0x0200 + 16 * off.toNat + w.toNat)) := by
  have hinfo : (Illegal.badField off w).info = BitVec.ofNat 16 (0x0200 + 16 * off.toNat + w.toNat) := by
    revert off w
    decide +kernel
  rw [← hinfo]
  exact raise_eq_withError rfl

/-- Detail 0x01tt (R212). -/
theorem raise_wrongTag (s : State) (tag : BitVec 3) :
    s.raise (.illegalRequest (.wrongTag tag)) = s.withError 8 (BitVec.ofNat 16 (0x0100 + tag.toNat)) := by
  have hinfo : (Illegal.wrongTag tag).info = BitVec.ofNat 16 (0x0100 + tag.toNat) := by
    revert tag
    decide +kernel
  rw [← hinfo]
  exact raise_eq_withError rfl

theorem raise_userInputError (s : State) (n : Nat) :
    s.raise (.userInputError n) = s.withError 5 (BitVec.ofNat 16 n) := raise_eq_withError rfl

/-- Of a mapped reference, only the tag is left to check (R77). -/
theorem refError_of_mapped {allowed : List Tag} {r : Ref} (hr : IsMappedRef r) :
    refError allowed r =
      if allowed.any fun t => t.code = r.tag then none else some (.illegalRequest (.wrongTag r.tag)) := by
  have hmap : inRegMap r = true := by rw [inRegMap_eq]; exact decide_eq_true hr
  simp only [refError, hmap]
  cases allowed.any fun t => t.code = r.tag <;> rfl

theorem refError_of_allowed {allowed : List Tag} {r : Ref} {t : Tag} (hr : IsMappedRef r) (ht : t ∈ allowed)
    (htag : r.tag.toNat = t.code.toNat) : refError allowed r = none := by
  have hany : (allowed.any fun t => t.code = r.tag) = true :=
    List.any_eq_true.mpr ⟨t, ht, decide_eq_true (BitVec.eq_of_toNat_eq htag.symm)⟩
  rw [refError_of_mapped hr, if_pos hany]

theorem refError_of_not_allowed {allowed : List Tag} {r : Ref} (hr : IsMappedRef r)
    (hne : ∀ t ∈ allowed, r.tag.toNat ≠ t.code.toNat) :
    refError allowed r = some (.illegalRequest (.wrongTag r.tag)) := by
  have hany : ¬ (allowed.any fun t => t.code = r.tag) = true := by
    rw [List.any_eq_true]
    rintro ⟨t, ht, htag⟩
    exact hne t ht (congrArg BitVec.toNat (of_decide_eq_true htag).symm)
  rw [refError_of_mapped hr, if_neg hany]

theorem fieldError_of_fits {off : BitVec 3} {w : BitVec 4} (hw : 1 ≤ w.toNat) (hfit : off.toNat + w.toNat ≤ 8) :
    fieldError off w = none := if_neg (by omega)

theorem fieldError_of_not_fits {off : BitVec 3} {w : BitVec 4} (h : w.toNat = 0 ∨ 8 < off.toNat + w.toNat) :
    fieldError off w = some (.illegalRequest (.badField off w)) := if_pos h

/-! ### The frame or the refusal of each bus request -/

theorem regReadFrame_of_config {r : Ref} (hr : IsConfigRef r) :
    regReadFrame r = .ok ⟨BitVec.ofNat 8 (0x80 + r.addr.toNat), [0x00#8]⟩ := by
  have hok : refError [.config, .status] r = none :=
    refError_of_allowed (t := .config) (.inl hr) (by simp) hr.1
  have hsingle : r.tag ≠ Tag.status.code := fun h => absurd (h ▸ hr.1) (by decide)
  rw [regReadFrame, hok, if_neg hsingle, headerByte_eq_ofNat]
  rfl

theorem regReadFrame_of_status {r : Ref} (hr : IsStatusRef r) :
    regReadFrame r = .ok ⟨BitVec.ofNat 8 (0xC0 + r.addr.toNat), [0x00#8]⟩ := by
  have hok : refError [.config, .status] r = none :=
    refError_of_allowed (t := .status) (.inr (.inl hr)) (by simp) hr.1
  have hburst : r.tag = Tag.status.code := BitVec.eq_of_toNat_eq hr.1
  rw [regReadFrame, hok, if_pos hburst, headerByte_eq_ofNat]
  rfl

theorem regReadFrame_of_wrongTag {r : Ref} (hr : IsMappedRef r) (htag : 2 ≤ r.tag.toNat) :
    regReadFrame r = .error (.illegalRequest (.wrongTag r.tag)) := by
  rw [regReadFrame, refError_of_not_allowed hr (by simp [Tag.code]; omega)]
  rfl

theorem regWriteFrame_of_config {r : Ref} (value : Byte) (hr : IsConfigRef r) :
    regWriteFrame r value = .ok ⟨BitVec.ofNat 8 r.addr.toNat, [value]⟩ := by
  rw [regWriteFrame, refError_of_allowed (t := .config) (.inl hr) (by simp) hr.1, headerByte_eq_ofNat]
  simp [admitUnless, bitNat]

theorem regWriteFrame_of_wrongTag {r : Ref} (value : Byte) (hr : IsMappedRef r) (htag : 1 ≤ r.tag.toNat) :
    regWriteFrame r value = .error (.illegalRequest (.wrongTag r.tag)) := by
  rw [regWriteFrame, refError_of_not_allowed hr (by simp [Tag.code]; omega)]
  rfl

theorem strobeFrame_of_strobe {r : Ref} (hr : IsStrobeRef r) :
    strobeFrame r = .ok ⟨BitVec.ofNat 8 r.addr.toNat, []⟩ := by
  rw [strobeFrame, refError_of_allowed (t := .strobe) (.inr (.inr (.inl hr))) (by simp) hr.1, headerByte_eq_ofNat]
  simp [admitUnless, bitNat]

theorem strobeFrame_of_wrongTag {r : Ref} (hr : IsMappedRef r) (htag : r.tag.toNat ≠ 2) :
    strobeFrame r = .error (.illegalRequest (.wrongTag r.tag)) := by
  rw [strobeFrame, refError_of_not_allowed hr (by simpa [Tag.code] using htag)]
  rfl

theorem burstReadFrame_of_le {cap : Nat} {n : BitVec 8} (a : BitVec 6) (hn : n.toNat ≤ cap) :
    burstReadFrame cap a n = .ok ⟨headerByte true true a, List.replicate n.toNat 0x00#8⟩ := by
  rw [burstReadFrame, capacityError, if_neg (Nat.not_lt.mpr hn)]
  rfl

theorem burstReadFrame_of_lt {cap : Nat} {n : BitVec 8} (a : BitVec 6) (hn : cap < n.toNat) :
    burstReadFrame cap a n = .error (.userInputError n.toNat) := by
  rw [burstReadFrame, capacityError, if_pos hn]
  rfl

theorem burstWriteFrame_of_le {cap : Nat} {data : List Byte} (a : BitVec 6) (hn : data.length ≤ cap) :
    burstWriteFrame cap a data = .ok ⟨headerByte false true a, data⟩ := by
  rw [burstWriteFrame, capacityError, if_neg (Nat.not_lt.mpr hn)]
  rfl

theorem burstWriteFrame_of_lt {cap : Nat} {data : List Byte} (a : BitVec 6) (hn : cap < data.length) :
    burstWriteFrame cap a data = .error (.userInputError data.length) := by
  rw [burstWriteFrame, capacityError, if_pos hn]
  rfl

/-! ### The requests that answer what one transaction brings -/

/-- `i` is the bus request with the frame or refusal `a`, and answers `f` of the bytes received in the data slots. -/
def AnswersFrame (i : Instr) (a : Except Err Frame) (f : List Byte → Result) : Prop :=
  ∀ s : State, exec i s = .next (s.busRequest a fun data t => t.respond (f data))

theorem regRead_answersFrame (r : Ref) :
    AnswersFrame (.regRead r) (regReadFrame r) fun data => .value (data.headD 0x00#8) := fun _ => rfl

theorem regWrite_answersFrame (r : Ref) (value : Byte) :
    AnswersFrame (.regWrite r value) (regWriteFrame r value) fun _ => .none := fun _ => rfl

theorem strobe_answersFrame (r : Ref) : AnswersFrame (.strobe r) (strobeFrame r) fun _ => .none := fun _ => rfl

theorem fifoRead_answersFrame (n : BitVec 8) :
    AnswersFrame (.fifoRead n) (burstReadFrame Config.fifoCap fifoAddr n) .data := fun _ => rfl

theorem fifoWrite_answersFrame (data : List Byte) :
    AnswersFrame (.fifoWrite data) (burstWriteFrame Config.fifoCap fifoAddr data) fun _ => .none := fun _ => rfl

theorem patableRead_answersFrame (n : BitVec 8) :
    AnswersFrame (.patableRead n) (burstReadFrame Config.patableCap patableAddr n) .data := fun _ => rfl

theorem patableWrite_answersFrame (data : List Byte) :
    AnswersFrame (.patableWrite data) (burstWriteFrame Config.patableCap patableAddr data) fun _ => .none :=
  fun _ => rfl

section
variable {i : Instr} {a : Except Err Frame} {f : List Byte → Result} {m : Frame} {s : State}

theorem AnswersFrame.refused (hi : AnswersFrame i a f) {e : Err} (ha : a = .error e) :
    exec i s = .next (s.raise e) := by
  rw [hi, ha, busRequest_error]

theorem AnswersFrame.received (hi : AnswersFrame i a f) (ha : a = .ok m) {status : Byte} {data : List Byte}
    (hx : s.exchange m.body.length = .received status data) :
    exec i s = .next ((s.afterExchange m.bytes status data).withOk (f data)) := by
  rw [hi, ha, busRequest_ok, transact_received hx, respond_eq_withOk]

theorem AnswersFrame.failed (hi : AnswersFrame i a f) (ha : a = .ok m) {e : Nat}
    (hx : s.exchange m.body.length = .failed e) : exec i s = .next (s.afterFailure m.bytes e) := by
  rw [hi, ha, busRequest_ok, transact_failed hx, raise_record]

end

/-! ### The statements -/

/-- Settles O12: the header byte as a number. -/
theorem hdrEncFormsTheHeader : Obligations.HdrEncFormsTheHeader := by
  intro rw b a s
  show Host.Outcome.next (s.respond (.header (headerByte rw b a))) = _
  rw [headerByte_eq_ofNat, respond_eq_withOk]

/-- Settles O13: each field and the class as numbers. -/
theorem hdrDecGivesFieldsAndClass : Obligations.HdrDecGivesFieldsAndClass := by
  intro h s
  show Host.Outcome.next (s.respond (decodedHeader h)) = _
  rw [decodedHeader, headerRw, headerB, headerAddr, getLsbD_seven_eq, getLsbD_six_eq,
    extractLsb'_zero_eq_ofNat_mod, headerClass_eq, respond_eq_withOk]
  rfl

/-- Settles O16: each decoder's slices of the byte as numbers. -/
theorem byteDecodersSplitTheByte : Obligations.ByteDecodersSplitTheByte := by
  intro x s
  refine ⟨?_, ?_, ?_⟩
  · show Host.Outcome.next (s.respond (.statusFields _ _ _ _ _)) = _
    rw [getLsbD_seven_eq, extractLsb'_zero_eq_ofNat_mod, extractLsb'_eq_ofNat_div x 4 4,
      extractLsb'_eq_ofNat_mod x 4 3, respond_eq_withOk]
    rfl
  · show Host.Outcome.next (s.respond (.fifoCount _ _)) = _
    rw [fifoCountOf, fifoFaultOf, getLsbD_seven_eq, extractLsb'_zero_eq_ofNat_mod, respond_eq_withOk]
    rfl
  · show Host.Outcome.next (s.respond (.crc _ _)) = _
    rw [crcFailed_eq, lqiEstimate, extractLsb'_zero_eq_ofNat_mod, respond_eq_withOk]
    rfl

/-- Settles O17, by the two values of `STATUS_VALID`. -/
theorem statusGetReportsTheRetainedByte : Obligations.StatusGetReportsTheRetainedByte := by
  intro s
  constructor
  · intro hvalid
    simp only [exec, execStatusGet, hvalid, if_true, respond_eq_withOk]
  · intro hvalid
    simp only [exec, execStatusGet, hvalid, Bool.false_eq_true, if_false, respond_eq_withOk]

/-- Settles O18: the field fits, or the check refuses it. -/
theorem fieldGetExtractsTheField : Obligations.FieldGetExtractsTheField := by
  intro v off w s
  constructor
  · intro hw hfit
    simp only [exec, execFieldGet, fieldError_of_fits hw hfit]
    rw [fieldExtract_eq_ofNat v off (by omega), respond_eq_withOk]
  · intro hbad
    simp only [exec, execFieldGet, fieldError_of_not_fits hbad]
    rw [raise_badField]

/-- Settles O22: the two frames of `REG_READ` differ in the header only. -/
theorem regReadReturnsTheReceivedByte : Obligations.RegReadReturnsTheReceivedByte := by
  intro r s
  refine ⟨fun h hh => ?_, fun hr htag => ?_⟩
  · have hframe : regReadFrame r = .ok ⟨BitVec.ofNat 8 h, [0x00#8]⟩ := by
      rcases hh with ⟨hr, rfl⟩ | ⟨hr, rfl⟩
      · exact regReadFrame_of_config hr
      · exact regReadFrame_of_status hr
    refine ⟨fun status data hx => ?_, fun e hx => (regRead_answersFrame r).failed hframe hx⟩
    obtain ⟨v, rfl⟩ := data_of_exchange_one hx
    exact ⟨v, rfl, (regRead_answersFrame r).received hframe hx⟩
  · rw [(regRead_answersFrame r).refused (regReadFrame_of_wrongTag hr htag), raise_wrongTag]

/-- Settles O23: the answer is the same whatever came back. -/
theorem regWriteSendsTheValue : Obligations.RegWriteSendsTheValue := by
  intro r value s
  refine ⟨fun hr => ?_, fun hr htag => ?_⟩
  · have hframe := regWriteFrame_of_config value hr
    exact ⟨fun status data hx => (regWrite_answersFrame r value).received hframe hx,
      fun e hx => (regWrite_answersFrame r value).failed hframe hx⟩
  · rw [(regWrite_answersFrame r value).refused (regWriteFrame_of_wrongTag value hr htag), raise_wrongTag]

/-- Settles O24: a frame without data slots receives none. -/
theorem strobeSendsOneByte : Obligations.StrobeSendsOneByte := by
  intro r s
  refine ⟨fun hr => ?_, fun hr htag => ?_⟩
  · have hframe := strobeFrame_of_strobe hr
    refine ⟨fun status data hx => ?_, fun e hx => (strobe_answersFrame r).failed hframe hx⟩
    obtain rfl : data = [] := List.length_eq_zero_iff.mp (data_length_of_exchange hx)
    exact (strobe_answersFrame r).received hframe hx
  · rw [(strobe_answersFrame r).refused (strobeFrame_of_wrongTag hr htag), raise_wrongTag]

/-- Settles O26: the data are as many as the dummy bytes sent. -/
theorem fifoReadReturnsTheReceivedBytes : Obligations.FifoReadReturnsTheReceivedBytes := by
  intro n s
  refine ⟨fun hn => ?_, fun hn => ?_⟩
  · have hframe := burstReadFrame_of_le fifoAddr (cap := Config.fifoCap) hn
    refine ⟨fun status data hx => ⟨data_length_of_exchange hx, ?_⟩, fun e hx => ?_⟩
    · exact (fifoRead_answersFrame n).received hframe (by rwa [List.length_replicate])
    · exact (fifoRead_answersFrame n).failed hframe (by rwa [List.length_replicate])
  · rw [(fifoRead_answersFrame n).refused (burstReadFrame_of_lt fifoAddr hn), raise_userInputError]

/-- Settles O27: the data go out as the body of the frame. -/
theorem fifoWriteSendsTheData : Obligations.FifoWriteSendsTheData := by
  intro data s
  refine ⟨fun hn => ?_, fun hn => ?_⟩
  · have hframe := burstWriteFrame_of_le fifoAddr (cap := Config.fifoCap) hn
    exact ⟨fun status got hx => (fifoWrite_answersFrame data).received hframe hx,
      fun e hx => (fifoWrite_answersFrame data).failed hframe hx⟩
  · rw [(fifoWrite_answersFrame data).refused (burstWriteFrame_of_lt fifoAddr hn), raise_userInputError]

/-- Settles O28, by whether `n` exceeds `PATABLE_CAP` and what the transfer yields. -/
theorem patableReadReturnsTheReceivedBytes : Obligations.PatableReadReturnsTheReceivedBytes := by
  intro n s
  by_cases hn : Config.patableCap < n.toNat
  · rw [if_pos hn, (patableRead_answersFrame n).refused (burstReadFrame_of_lt patableAddr hn), raise_userInputError]
  · have hframe := burstReadFrame_of_le patableAddr (Nat.not_lt.mp hn)
    rw [if_neg hn]
    cases hx : s.exchange n.toNat with
    | received status data => exact (patableRead_answersFrame n).received hframe (by rwa [List.length_replicate])
    | failed e => exact (patableRead_answersFrame n).failed hframe (by rwa [List.length_replicate])

/-- Settles O29, by whether the data exceed `PATABLE_CAP` and what the transfer yields. -/
theorem patableWriteSendsTheData : Obligations.PatableWriteSendsTheData := by
  intro data s
  by_cases hn : Config.patableCap < data.length
  · rw [if_pos hn, (patableWrite_answersFrame data).refused (burstWriteFrame_of_lt patableAddr hn),
      raise_userInputError]
  · have hframe := burstWriteFrame_of_le patableAddr (Nat.not_lt.mp hn)
    rw [if_neg hn]
    cases hx : s.exchange data.length with
    | received status got => exact (patableWrite_answersFrame data).received hframe hx
    | failed e => exact (patableWrite_answersFrame data).failed hframe hx

/-- Settles O30: of the three things `exec` can do, only completing this frame's transaction agrees with the
hypotheses. -/
theorem everyTransactionCapturesTheStatus : Obligations.EveryTransactionCapturesTheStatus := by
  intro i m s status data hframe hx
  cases exec_cases i s with
  | quiet t r hf h hr ht => simp [hf] at hframe
  | failed m' e hf hx' h =>
    obtain rfl : m' = m := Option.some.inj (hf.symm.trans hframe)
    simp [hx] at hx'
  | received m' x d t r hf hx' h hr ht =>
    obtain rfl : m' = m := Option.some.inj (hf.symm.trans hframe)
    obtain ⟨rfl, rfl⟩ : status = x ∧ data = d := by simpa [hx] using hx'
    obtain ⟨-, -, -, hlast, hvalid, -⟩ := ht
    exact ⟨_, h, hlast, hvalid⟩

end Sys2Proof.Machine
end

section
/-! SUPPORT and PROOFS for 42_unit_converters.md. First rounding, and the grids (base + m) * 2^e as natural numbers:
their order, and that `gridEncode` answers the point nearest to a request that is no tie (R152). Then the same in Hz,
for the data rate and the deviation alike; then each instruction's answer, and the statements. -/

namespace Sys2Proof.Machine

/-! ### Answers and errors -/

theorem raise_outOfRange (s : State) (op : Byte) :
    s.raise (.outOfRange op) = s.withError 7 (op.setWidth 16) := raise_eq_withError rfl

/-- Of one state, the response tells which result was answered. -/
theorem next_withOk_inj {s : State} {d d' : Result} :
    (Host.Outcome.next (s.withOk d) : Out) = .next (s.withOk d') ↔ d = d' := by
  simp [State.withOk]

theorem next_withError_ne_withOk {s : State} {err : BitVec 4} {info : BitVec 16} {d : Result} :
    (Host.Outcome.next (s.withError err info) : Out) ≠ .next (s.withOk d) := by
  simp [State.withError, State.withOk]

/-! ### Rounding -/

/-- `roundHalfUp(num / den)` is the integer n with n - 1/2 <= num/den < n + 1/2 (R10), cleared of denominators. -/
theorem roundHalfUp_bounds (num : Nat) {den : Nat} (hden : 0 < den) :
    2 * roundHalfUp num den * den ≤ 2 * num + den ∧ 2 * num < (2 * roundHalfUp num den + 1) * den := by
  have hle := Nat.div_mul_le_self (2 * num + den) (2 * den)
  have hlt := Nat.lt_div_mul_add (a := 2 * num + den) (b := 2 * den) (by omega)
  unfold roundHalfUp
  constructor <;> nlinarith

theorem roundHalfUp_mono {num num' : Nat} (den : Nat) (h : num ≤ num') :
    roundHalfUp num den ≤ roundHalfUp num' den :=
  Nat.div_le_div_right (by omega)

/-! ### Grids of a mantissa and an exponent -/

/-- The grid point (m, e) in units of the grid's step at exponent 0. -/
def gridValue (base m e : Nat) : Nat := (base + m) * 2 ^ e

/-- A grid's points are strictly ordered in the index base * e + m (R149). -/
theorem gridValue_lt {base m e m' e' : Nat} (hm : m < base) (h : base * e + m < base * e' + m') (hm' : m' < base) :
    gridValue base m e < gridValue base m' e' := by
  unfold gridValue
  rcases Nat.lt_trichotomy e e' with he | rfl | he
  · have hpow : 2 ^ (e + 1) ≤ 2 ^ e' := Nat.pow_le_pow_right (by decide) he
    calc (base + m) * 2 ^ e < (base + base) * 2 ^ e := Nat.mul_lt_mul_of_pos_right (by omega) (Nat.two_pow_pos e)
      _ = base * 2 ^ (e + 1) := by ring
      _ ≤ (base + m') * 2 ^ e' := Nat.mul_le_mul (by omega) hpow
  · exact Nat.mul_lt_mul_of_pos_right (by omega) (Nat.two_pow_pos e)
  · have := Nat.mul_le_mul_left base he
    nlinarith

theorem gridValue_ne {base m e m' e' : Nat} (hm : m < base) (hm' : m' < base) (hne : (m', e') ≠ (m, e)) :
    gridValue base m' e' ≠ gridValue base m e := by
  rcases Nat.lt_trichotomy (base * e' + m') (base * e + m) with hlt | heq | hlt
  · exact (gridValue_lt hm' hlt hm).ne
  · have hdiv (m e : Nat) (hm : m < base) : (base * e + m) / base = e := by
      rw [Nat.mul_add_div (by omega), Nat.div_eq_of_lt hm, Nat.add_zero]
    obtain rfl : e' = e := by rw [← hdiv m' e' hm', heq, hdiv m e hm]
    exact absurd (by rw [Nat.add_left_cancel heq]) hne
  · exact (gridValue_lt hm hlt hm').ne'

/-- Below the point base * 2^k a grid may be finer; from there on its points are multiples of 2^k. -/
theorem gridValue_lt_or_dvd {base m : Nat} (e k : Nat) (hm : m < base) :
    gridValue base m e < base * 2 ^ k ∨ 2 ^ k ∣ gridValue base m e := by
  unfold gridValue
  rcases Nat.lt_or_ge e k with he | he
  · have hpow : 2 ^ (e + 1) ≤ 2 ^ k := Nat.pow_le_pow_right (by decide) he
    left
    calc (base + m) * 2 ^ e < (base + base) * 2 ^ e := Nat.mul_lt_mul_of_pos_right (by omega) (Nat.two_pow_pos e)
      _ = base * 2 ^ (e + 1) := by ring
      _ ≤ base * 2 ^ k := Nat.mul_le_mul_left base hpow
  · exact .inr ((Nat.pow_dvd_pow 2 he).mul_left _)

theorem base_le_gridValue (base m e : Nat) : base ≤ gridValue base m e :=
  (Nat.le_add_right base m).trans (Nat.le_mul_of_pos_right _ (Nat.two_pow_pos e))

/-! ### The encoder of a grid -/

section
variable {base eMax num den k n m e : Nat}

theorem gridExponent_le (base num den n : Nat) : gridExponent base num den n ≤ n := by
  induction n with
  | zero => exact Nat.le_refl 0
  | succ n ih =>
    unfold gridExponent
    split
    · exact Nat.le_refl _
    · exact ih.trans (Nat.le_succ n)

theorem gridExponent_reached (base num den n : Nat) :
    gridExponent base num den n = 0 ∨ base * (den * 2 ^ gridExponent base num den n) ≤ num := by
  induction n with
  | zero => exact .inl rfl
  | succ n ih =>
    unfold gridExponent
    split
    · right; linarith
    · exact ih

theorem lt_of_gridExponent_lt (h : gridExponent base num den n < n) :
    num < 2 * base * (den * 2 ^ gridExponent base num den n) := by
  induction n with
  | zero => exact absurd h (Nat.not_lt_zero _)
  | succ n ih =>
    unfold gridExponent at h ⊢
    split at h
    · exact absurd h (Nat.lt_irrefl _)
    · rename_i hn
      rw [if_neg hn]
      rcases Nat.lt_or_ge (gridExponent base num den n) n with hlt | hge
      · exact ih hlt
      · rw [Nat.le_antisymm (gridExponent_le base num den n) hge]
        calc num < base * 2 ^ (n + 1) * den := Nat.not_le.mp hn
          _ = 2 * base * (den * 2 ^ n) := by ring

theorem gridEncode_eq_none_iff :
    gridEncode base eMax num den = none ↔
      2 * num < (2 * base - 1) * den ∨ (4 * base - 1) * 2 ^ eMax * den ≤ 2 * num := by
  unfold gridEncode
  split
  · exact iff_of_true rfl ‹_›
  · refine iff_of_false ?_ ‹_›
    dsimp only
    split <;> simp

/-- No rounding of num/den at an exponent up to `eMax` meets an exact half (R152). -/
def NoTie (num den eMax : Nat) : Prop := ∀ k ≤ eMax, ∀ j, 2 * num ≠ (2 * j + 1) * (den * 2 ^ k)

/-- n * 2^k is num/den rounded at the exponent k, strictly within half a step; num/den reaches the exponent, or the
exponent is 0, and it is at least (2 * base - 1) half steps. -/
structure GridRounding (base num den k n : Nat) : Prop where
  base_le : base ≤ n
  lower : 2 * n * (den * 2 ^ k) < 2 * num + den * 2 ^ k
  upper : 2 * num < (2 * n + 1) * (den * 2 ^ k)
  reached : k = 0 ∨ base * (den * 2 ^ k) ≤ num
  domain : (2 * base - 1) * (den * 2 ^ k) ≤ 2 * num

theorem gridRounding_roundHalfUp (hbase : 0 < base) (hden : 0 < den) (hlow : (2 * base - 1) * den ≤ 2 * num)
    (hreached : k = 0 ∨ base * (den * 2 ^ k) ≤ num) (htie : ∀ j, 2 * num ≠ (2 * j + 1) * (den * 2 ^ k)) :
    GridRounding base num den k (roundHalfUp num (den * 2 ^ k)) := by
  obtain ⟨hle, hupper⟩ := roundHalfUp_bounds num (Nat.mul_pos hden (Nat.two_pow_pos k))
  generalize roundHalfUp num (den * 2 ^ k) = n at *
  have hdomain : (2 * base - 1) * (den * 2 ^ k) ≤ 2 * num := by
    rcases hreached with rfl | hreached
    · rwa [Nat.pow_zero, Nat.mul_one]
    · have := Nat.mul_le_mul_right (den * 2 ^ k) (Nat.sub_le (2 * base) 1)
      linarith
  have hn : base ≤ n := by
    have := Nat.lt_of_mul_lt_mul_right (hdomain.trans_lt hupper)
    omega
  refine ⟨hn, Nat.lt_of_le_of_ne hle fun heq => htie (n - 1) ?_, hupper, hreached, hdomain⟩
  obtain ⟨j, rfl⟩ : ∃ j, n = j + 1 := ⟨n - 1, by omega⟩
  rw [Nat.add_sub_cancel]
  linarith

/-- What the encoder accepts, it rounds at the exponent it chose; a mantissa that rounds up to 2 * base is the point
(0, k + 1), and that exponent exists because the domain ends below it. -/
theorem gridEncode_rounding (hbase : 0 < base) (hden : 0 < den) (htie : NoTie num den eMax)
    (h : gridEncode base eMax num den = some (m, e)) :
    m < base ∧ e ≤ eMax ∧ ∃ k n, gridValue base m e = n * 2 ^ k ∧ GridRounding base num den k n := by
  have hdom : ¬ (_ ∨ _) := mt gridEncode_eq_none_iff.mpr (by rw [h]; exact Option.some_ne_none _)
  obtain ⟨hlow, hhigh⟩ := not_or.mp hdom
  have hkle := gridExponent_le base num den eMax
  have hr := gridRounding_roundHalfUp hbase hden (Nat.not_lt.mp hlow) (gridExponent_reached base num den eMax)
    (htie _ hkle)
  have hmax := @lt_of_gridExponent_lt base num den eMax
  rw [gridEncode, if_neg hdom] at h
  dsimp only at h
  generalize gridExponent base num den eMax = k at *
  generalize roundHalfUp num (den * 2 ^ k) = n at *
  have hcarry : n < 2 * base ∨ n = 2 * base ∧ k < eMax := by
    rcases Nat.lt_or_ge k eMax with hk | hk
    · have := Nat.lt_of_mul_lt_mul_right (a := den * 2 ^ k) (b := 2 * n) (c := 4 * base + 1)
        (by linarith [hmax hk, hr.lower])
      omega
    · obtain rfl : k = eMax := Nat.le_antisymm hkle hk
      have := Nat.lt_of_mul_lt_mul_right (a := den * 2 ^ k) (b := 2 * n) (c := 4 * base - 1 + 1)
        (by linarith [hr.lower])
      omega
  split at h <;> obtain ⟨rfl, rfl⟩ := Prod.mk.inj (Option.some.inj h)
  · exact ⟨hbase, by omega, k, n, by simp only [gridValue, *]; ring, hr⟩
  · exact ⟨by omega, hkle, k, n, by rw [gridValue, Nat.add_sub_cancel' hr.base_le], hr⟩

/-- v is nearer to num/den than w: num/den lies on v's side of the middle between them. -/
def Nearer (num den v w : Nat) : Prop :=
  w < v ∧ (w + v) * den < 2 * num ∨ v < w ∧ 2 * num < (v + w) * den

/-- The points nearest to two requests are in the order of the requests. -/
theorem Nearer.le_of_le {num num' den v v' : Nat} (hle : num ≤ num') (hv : Nearer num den v v')
    (hv' : Nearer num' den v' v) : v ≤ v' := by
  by_contra hlt
  have hmid := hv.resolve_right (by omega)
  have hmid' := hv'.resolve_left (by omega)
  omega

theorem GridRounding.nearer_of_lt (hr : GridRounding base num den k n) (hden : 0 < den) (hm : m < base)
    (hlt : gridValue base m e < n * 2 ^ k) : Nearer num den (n * 2 ^ k) (gridValue base m e) := by
  obtain ⟨hn, hlower, -, hreached, -⟩ := hr
  refine .inl ⟨hlt, ?_⟩
  rcases gridValue_lt_or_dvd e k hm with hw | ⟨c, hc⟩
  · have hk : k ≠ 0 := by
      rintro rfl
      have := base_le_gridValue base m e
      omega
    have hreached := hreached.resolve_left hk
    have hw' := Nat.mul_lt_mul_of_pos_right hw hden
    rcases Nat.eq_or_lt_of_le hn with rfl | hn
    · linarith
    · have := Nat.mul_le_mul_right (den * 2 ^ k) hn
      linarith
  · rw [hc] at hlt ⊢
    have hcn : c < n := Nat.lt_of_mul_lt_mul_right (a := 2 ^ k) (by linarith)
    have := Nat.mul_le_mul_right (den * 2 ^ k) hcn
    linarith

theorem GridRounding.nearer_of_gt (hr : GridRounding base num den k n) (hm : m < base)
    (hlt : n * 2 ^ k < gridValue base m e) : Nearer num den (n * 2 ^ k) (gridValue base m e) := by
  obtain ⟨hn, -, hupper, -, -⟩ := hr
  refine .inr ⟨hlt, ?_⟩
  have hw : ¬ gridValue base m e < base * 2 ^ k := by
    have := Nat.mul_le_mul_right (2 ^ k) hn
    omega
  obtain ⟨c, hc⟩ := (gridValue_lt_or_dvd e k hm).resolve_left hw
  rw [hc] at hlt ⊢
  have hnc : n < c := Nat.lt_of_mul_lt_mul_right (a := 2 ^ k) (by linarith)
  have := Nat.mul_le_mul_right (den * 2 ^ k) hnc
  linarith

theorem GridRounding.error (hr : GridRounding base num den k n) (hbase : 0 < base) :
    |((n * 2 ^ k : Nat) * den - num : ℚ)| * (2 * base - 1) ≤ num := by
  have hlower : (2 * n * (den * 2 ^ k) : ℚ) < 2 * num + den * 2 ^ k := by exact_mod_cast hr.lower
  have hupper : (2 * num : ℚ) < (2 * n + 1) * (den * 2 ^ k) := by exact_mod_cast hr.upper
  have hdomain : ((2 * base - 1 : ℚ)) * (den * 2 ^ k) ≤ 2 * num := by
    have := hr.domain
    zify [show 1 ≤ 2 * base by omega] at this
    exact_mod_cast this
  have habs : |((n * 2 ^ k : Nat) * den - num : ℚ)| ≤ den * 2 ^ k / 2 := by
    push_cast
    rw [abs_le]
    constructor <;> linarith
  have hbase : (1 : ℚ) ≤ base := by exact_mod_cast hbase
  calc |((n * 2 ^ k : Nat) * den - num : ℚ)| * (2 * base - 1)
      ≤ den * 2 ^ k / 2 * (2 * base - 1) := mul_le_mul_of_nonneg_right habs (by linarith)
    _ ≤ num := by linarith

end

/-! ### Grids in Hz -/

/-- The grid point (m, e) of the grid with step FXOSC / 2^p at exponent 0. -/
def gridHz (base p m e : Nat) : ℚ := gridValue base m e * 26000000 / 2 ^ p

section
variable {base eMax p x y m e m' e' : Nat}

theorem gridHz_lt (hm : m < base) (hm' : m' < base) (h : base * e + m < base * e' + m') :
    gridHz base p m e < gridHz base p m' e' := by
  have hlt : (gridValue base m e : ℚ) < gridValue base m' e' := by exact_mod_cast gridValue_lt hm h hm'
  unfold gridHz
  gcongr

/-- A distance in Hz, over the common denominator 2^p. -/
theorem abs_gridHz_sub (base p m e x : Nat) :
    |gridHz base p m e - x| = |((gridValue base m e : Nat) * 26000000 - (x * 2 ^ p : Nat) : ℚ)| / 2 ^ p := by
  have hpow : (0 : ℚ) < 2 ^ p := by positivity
  rw [gridHz, ← abs_of_pos hpow, ← abs_div, abs_of_pos hpow]
  push_cast
  rw [sub_div, mul_div_cancel_right₀ _ hpow.ne']

theorem Nearer.abs_sub_lt (h : Nearer (x * 2 ^ p) 26000000 (gridValue base m e) (gridValue base m' e')) :
    |gridHz base p m e - x| < |gridHz base p m' e' - x| := by
  rw [abs_gridHz_sub, abs_gridHz_sub]
  refine div_lt_div_of_pos_right ?_ (by positivity)
  generalize x * 2 ^ p = num at h
  rcases h with ⟨hlt, hmid⟩ | ⟨hlt, hmid⟩
  · have hlt : (gridValue base m' e' : ℚ) < gridValue base m e := by exact_mod_cast hlt
    have hmid : ((gridValue base m' e' + gridValue base m e) * 26000000 : ℚ) < 2 * num := by exact_mod_cast hmid
    exact lt_abs.mpr (.inr (abs_lt.mpr ⟨by linarith, by linarith⟩))
  · have hlt : (gridValue base m e : ℚ) < gridValue base m' e' := by exact_mod_cast hlt
    have hmid : (2 * num : ℚ) < (gridValue base m e + gridValue base m' e') * 26000000 := by exact_mod_cast hmid
    exact lt_abs.mpr (.inl (abs_lt.mpr ⟨by linarith, by linarith⟩))

/-- FXOSC is 2^7 times an odd number, so an integer request scaled by 2^p is no tie (R152). -/
theorem noTie_fxosc (x : Nat) (hp : eMax + 7 ≤ p) : NoTie (x * 2 ^ p) 26000000 eMax := by
  intro k hk j heq
  obtain ⟨r, rfl⟩ : ∃ r, p = r + (k + 7) := ⟨p - (k + 7), by omega⟩
  have hodd : 2 * (x * 2 ^ r) = (2 * j + 1) * 203125 := by
    refine Nat.eq_of_mul_eq_mul_right (Nat.two_pow_pos (k + 7)) ?_
    linear_combination heq
  omega

section
variable (hp : eMax + 7 ≤ p) (hbase : 0 < base) (h : gridEncode base eMax (x * 2 ^ p) 26000000 = some (m, e))
include hp hbase h

theorem gridEncode_nearer (hm' : m' < base) (hne : (m', e') ≠ (m, e)) :
    Nearer (x * 2 ^ p) 26000000 (gridValue base m e) (gridValue base m' e') := by
  obtain ⟨hm, -, k, n, hv, hr⟩ := gridEncode_rounding hbase (by decide) (noTie_fxosc x hp) h
  have hw := gridValue_ne hm hm' hne
  rw [hv] at hw ⊢
  rcases Nat.lt_or_gt_of_ne hw with hlt | hgt
  · exact hr.nearer_of_lt (by decide) hm' hlt
  · exact hr.nearer_of_gt hm' hgt

theorem gridEncode_relative_error : |gridHz base p m e - x| / x ≤ 1 / (2 * base - 1) := by
  obtain ⟨-, -, k, n, hv, hr⟩ := gridEncode_rounding hbase (by decide) (noTie_fxosc x hp) h
  have herr := hr.error hbase
  rw [← hv] at herr
  have hbase : (0 : ℚ) < 2 * base - 1 := by
    have : (1 : ℚ) ≤ base := by exact_mod_cast hbase
    linarith
  rcases Nat.eq_zero_or_pos x with rfl | hx
  · simpa using hbase.le
  · have hx : (0 : ℚ) < x := by exact_mod_cast hx
    rw [abs_gridHz_sub, div_div, div_le_div_iff₀ (by positivity) hbase, one_mul, mul_comm (2 ^ p)]
    exact_mod_cast herr

end

theorem gridEncode_mono (hp : eMax + 7 ≤ p) (hbase : 0 < base) (hxy : x ≤ y)
    (hx : gridEncode base eMax (x * 2 ^ p) 26000000 = some (m, e))
    (hy : gridEncode base eMax (y * 2 ^ p) 26000000 = some (m', e')) : base * e + m ≤ base * e' + m' := by
  have hm := (gridEncode_rounding hbase (by decide) (noTie_fxosc x hp) hx).1
  have hm' := (gridEncode_rounding hbase (by decide) (noTie_fxosc y hp) hy).1
  by_contra hlt
  have hv : gridValue base m' e' < gridValue base m e := gridValue_lt hm' (by omega) hm
  have hne : (m', e') ≠ (m, e) := by rintro ⟨⟩; exact hv.ne rfl
  have hle := Nearer.le_of_le (Nat.mul_le_mul_right (2 ^ p) hxy) (gridEncode_nearer hp hbase hx hm' hne)
    (gridEncode_nearer hp hbase hy hm hne.symm)
  exact absurd hv (Nat.not_lt.mpr hle)

end

/-- The grid with `a` bits of mantissa, `b` bits of exponent and step FXOSC / 2^p encodes the request `x` as (m, e). -/
def GridEncodes (p x : Nat) {a b : Nat} (m : BitVec a) (e : BitVec b) : Prop :=
  gridEncode (2 ^ a) (2 ^ b - 1) (x * 2 ^ p) 26000000 = some (m.toNat, e.toNat)

section
variable {a b p x y : Nat} {m m' : BitVec a} {e e' : BitVec b}

theorem gridEncode_eq_some_iff (hp : 2 ^ b + 6 ≤ p) {i j : Nat}
    (h : gridEncode (2 ^ a) (2 ^ b - 1) (x * 2 ^ p) 26000000 = some (i, j)) :
    GridEncodes p x m e ↔ BitVec.ofNat a i = m ∧ BitVec.ofNat b j = e := by
  have hb := Nat.two_pow_pos b
  obtain ⟨hi, hj, -⟩ := gridEncode_rounding (Nat.two_pow_pos a) (by decide) (noTie_fxosc x (by omega)) h
  rw [GridEncodes, h, Option.some_inj, Prod.mk.injEq, ← BitVec.toNat_inj, ← BitVec.toNat_inj, BitVec.toNat_ofNat,
    BitVec.toNat_ofNat, Nat.mod_eq_of_lt hi, Nat.mod_eq_of_lt (by omega)]

theorem exists_gridEncodes (hp : 2 ^ b + 6 ≤ p)
    (h : gridEncode (2 ^ a) (2 ^ b - 1) (x * 2 ^ p) 26000000 ≠ none) :
    ∃ (m : BitVec a) (e : BitVec b), GridEncodes p x m e := by
  obtain ⟨⟨i, j⟩, h⟩ := Option.ne_none_iff_exists'.mp h
  exact ⟨_, _, (gridEncode_eq_some_iff hp h).mpr ⟨rfl, rfl⟩⟩

theorem GridEncodes.abs_sub_lt (h : GridEncodes p x m e) (hp : 2 ^ b + 6 ≤ p) (hne : (m', e') ≠ (m, e)) :
    |gridHz (2 ^ a) p m.toNat e.toNat - x| < |gridHz (2 ^ a) p m'.toNat e'.toNat - x| := by
  have hb := Nat.two_pow_pos b
  refine (gridEncode_nearer (by omega) (Nat.two_pow_pos a) h m'.isLt fun heq => hne ?_).abs_sub_lt
  obtain ⟨hm, he⟩ := Prod.mk.inj heq
  rw [BitVec.eq_of_toNat_eq hm, BitVec.eq_of_toNat_eq he]

theorem GridEncodes.abs_sub_le (h : GridEncodes p x m e) (hp : 2 ^ b + 6 ≤ p) (m' : BitVec a) (e' : BitVec b) :
    |gridHz (2 ^ a) p m.toNat e.toNat - x| ≤ |gridHz (2 ^ a) p m'.toNat e'.toNat - x| := by
  by_cases heq : (m', e') = (m, e)
  · obtain ⟨rfl, rfl⟩ := Prod.mk.inj heq
    exact le_refl _
  · exact (h.abs_sub_lt hp heq).le

theorem GridEncodes.relative_error (h : GridEncodes p x m e) (hp : 2 ^ b + 6 ≤ p) :
    |gridHz (2 ^ a) p m.toNat e.toNat - x| / x ≤ 1 / (2 * (2 ^ a : Nat) - 1) := by
  have hb := Nat.two_pow_pos b
  exact gridEncode_relative_error (by omega) (Nat.two_pow_pos a) h

theorem GridEncodes.mono (h : GridEncodes p x m e) (h' : GridEncodes p y m' e') (hp : 2 ^ b + 6 ≤ p) (hxy : x ≤ y) :
    2 ^ a * e.toNat + m.toNat ≤ 2 ^ a * e'.toNat + m'.toNat := by
  have hb := Nat.two_pow_pos b
  exact gridEncode_mono (by omega) (Nat.two_pow_pos a) hxy h h'

end

/-! ### The data rate and the deviation -/

theorem drateValue_eq (m e : Nat) : drateValue m e = gridHz (2 ^ 8) 28 m e := by
  simp [drateValue, gridHz, gridValue]

theorem devValue_eq (m e : Nat) : devValue m e = gridHz (2 ^ 3) 17 m e := by
  simp [devValue, gridHz, gridValue]

theorem drateGrid_eq_none_iff (baud : BitVec 32) :
    drateGrid baud = none ↔ baud.toNat ≤ 24 ∨ 1623414 ≤ baud.toNat := by
  rw [drateGrid, gridEncode_eq_none_iff, Config.drateMBits, Config.drateEBits, Config.fxosc]
  omega

theorem devGrid_eq_none_iff (hz : BitVec 32) : devGrid hz = none ↔ hz.toNat ≤ 1487 ∨ 393555 ≤ hz.toNat := by
  rw [devGrid, gridEncode_eq_none_iff, Config.devMBits, Config.devEBits, Config.fxosc]
  omega

theorem exec_drateEnc_of_none {baud : BitVec 32} (h : drateGrid baud = none) (s : State) :
    exec (.drateEnc baud) s = .next (s.withError 7 0x0022) := by
  simp only [exec, execDrateEnc, h]
  rw [raise_outOfRange]
  rfl

theorem exec_devEnc_of_none {hz : BitVec 32} (h : devGrid hz = none) (s : State) :
    exec (.devEnc hz) s = .next (s.withError 7 0x0024) := by
  simp only [exec, execDevEnc, h]
  rw [raise_outOfRange]
  rfl

theorem exec_drateEnc_iff {baud : BitVec 32} {m : BitVec 8} {e : BitVec 4} (s : State) :
    exec (.drateEnc baud) s = .next (s.withOk (.drate m e)) ↔ GridEncodes 28 baud.toNat m e := by
  cases h : drateGrid baud with
  | none =>
    rw [exec_drateEnc_of_none h]
    exact iff_of_false next_withError_ne_withOk fun hg => nomatch hg.symm.trans h
  | some c =>
    simp only [exec, execDrateEnc, h]
    rw [respond_eq_withOk, next_withOk_inj, Result.drate.injEq]
    exact (gridEncode_eq_some_iff (by decide) h).symm

theorem exec_devEnc_iff {hz : BitVec 32} {m e : BitVec 3} (s : State) :
    exec (.devEnc hz) s = .next (s.withOk (.dev m e)) ↔ GridEncodes 17 hz.toNat m e := by
  cases h : devGrid hz with
  | none =>
    rw [exec_devEnc_of_none h]
    exact iff_of_false next_withError_ne_withOk fun hg => nomatch hg.symm.trans h
  | some c =>
    simp only [exec, execDevEnc, h]
    rw [respond_eq_withOk, next_withOk_inj, Result.dev.injEq]
    exact (gridEncode_eq_some_iff (by decide) h).symm

/-! ### The decoders -/

theorem ratValue_ofNat {num den : Nat} (hnum : num < 2 ^ 64) (hden : den < 2 ^ 64) :
    ratValue (BitVec.ofNat 64 num) (BitVec.ofNat 64 den) = num / den := by
  rw [ratValue, BitVec.toNat_ofNat, BitVec.toNat_ofNat, Nat.mod_eq_of_lt hnum, Nat.mod_eq_of_lt hden]

/-- A pair answered is the pair the decoder computes. -/
theorem ratValue_of_answer {num den : Nat} {s : State} {n d : BitVec 64} (hnum : num < 2 ^ 64) (hden : den < 2 ^ 64)
    (h : (Host.Outcome.next (s.respond (ratResult num den)) : Out) = .next (s.withOk (.rat n d))) :
    ratValue n d = num / den := by
  obtain ⟨rfl, rfl⟩ := Result.rat.inj (next_withOk_inj.mp h)
  exact ratValue_ofNat hnum hden

/-- Three bytes in a row, as one number (R142). -/
theorem toNat_append_bytes (f2 f1 f0 : Byte) :
    (f2 ++ f1 ++ f0).toNat = 65536 * f2.toNat + 256 * f1.toNat + f0.toNat := by
  rw [BitVec.toNat_append, BitVec.toNat_append, ← Nat.shiftLeft_add_eq_or_of_lt f0.isLt,
    ← Nat.shiftLeft_add_eq_or_of_lt f1.isLt, Nat.shiftLeft_eq, Nat.shiftLeft_eq]
  ring

theorem ratValue_of_freqDec {f2 f1 f0 : Byte} {s : State} {n d : BitVec 64}
    (h : exec (.freqDec f2 f1 f0) s = .next (s.withOk (.rat n d))) :
    ratValue n d = (65536 * f2.toNat + 256 * f1.toNat + f0.toNat : Nat) * 26000000 / 2 ^ 16 := by
  have hlt := (f2 ++ f1 ++ f0).isLt
  rw [ratValue_of_answer (by rw [Config.fxosc]; omega) (by decide) h, toNat_append_bytes, Config.fxosc]
  push_cast
  rfl

theorem ratValue_of_drateDec {m : BitVec 8} {e : BitVec 4} {s : State} {n d : BitVec 64}
    (h : exec (.drateDec m e) s = .next (s.withOk (.rat n d))) : ratValue n d = drateValue m.toNat e.toNat := by
  have hlt : (256 + m.toNat) * 2 ^ e.toNat ≤ 511 * 2 ^ 15 :=
    Nat.mul_le_mul (by omega) (Nat.pow_le_pow_right (by decide) (by omega))
  rw [ratValue_of_answer (by rw [Config.fxosc]; omega) (by decide) h, drateValue, Config.fxosc]
  push_cast
  rfl

theorem ratValue_of_devDec {m e : BitVec 3} {s : State} {n d : BitVec 64}
    (h : exec (.devDec m e) s = .next (s.withOk (.rat n d))) : ratValue n d = devValue m.toNat e.toNat := by
  have hlt : (8 + m.toNat) * 2 ^ e.toNat ≤ 15 * 2 ^ 7 :=
    Nat.mul_le_mul (by omega) (Nat.pow_le_pow_right (by decide) (by omega))
  rw [ratValue_of_answer (by rw [Config.fxosc]; omega) (by decide) h, devValue, Config.fxosc]
  push_cast
  rfl

/-! ### The channel bandwidth -/

theorem chbwDivisor_eq (m e : BitVec 2) : chbwDivisor m e = 8 * gridValue 4 m.toNat e.toNat :=
  Nat.mul_assoc _ _ _

theorem chbwDivisor_pos (m e : BitVec 2) : 0 < chbwDivisor m e := by
  have := base_le_gridValue 4 m.toNat e.toNat
  rw [chbwDivisor_eq]
  omega

theorem chbwDivisor_le : ∀ m e : BitVec 2, chbwDivisor m e ≤ 448 := by decide

/-- The bandwidths narrow with the index 4 e + m (R149). -/
theorem chbwDivisor_lt {m e m' e' : BitVec 2} (h : 4 * e.toNat + m.toNat < 4 * e'.toNat + m'.toNat) :
    chbwDivisor m e < chbwDivisor m' e' := by
  rw [chbwDivisor_eq, chbwDivisor_eq]
  exact Nat.mul_lt_mul_of_pos_left (gridValue_lt m.isLt h m'.isLt) (by decide)

theorem chbwDivisor_ne {m e m' e' : BitVec 2} (hne : (m', e') ≠ (m, e)) : chbwDivisor m' e' ≠ chbwDivisor m e := by
  rw [chbwDivisor_eq, chbwDivisor_eq]
  refine fun heq => gridValue_ne m.isLt m'.isLt (fun hpair => hne ?_) (Nat.eq_of_mul_eq_mul_left (by decide) heq)
  obtain ⟨hm, he⟩ := Prod.mk.inj hpair
  rw [BitVec.eq_of_toNat_eq hm, BitVec.eq_of_toNat_eq he]

theorem chbwValue_eq (m e : BitVec 2) : chbwValue m.toNat e.toNat = 26000000 / (chbwDivisor m e : ℚ) := by
  rw [chbwValue, chbwDivisor]
  push_cast
  rfl

theorem chbwValue_lt_iff (m e m' e' : BitVec 2) :
    chbwValue m.toNat e.toNat < chbwValue m'.toNat e'.toNat ↔ chbwDivisor m' e' < chbwDivisor m e := by
  have hpos : (0 : ℚ) < chbwDivisor m e := by exact_mod_cast chbwDivisor_pos m e
  have hpos' : (0 : ℚ) < chbwDivisor m' e' := by exact_mod_cast chbwDivisor_pos m' e'
  rw [chbwValue_eq, chbwValue_eq, div_lt_div_iff_of_pos_left (by norm_num) hpos hpos', Nat.cast_lt]

/-- The test of R147 in whole numbers. -/
theorem le_chbwValue_iff (hz : Nat) (m e : BitVec 2) :
    (hz : ℚ) ≤ chbwValue m.toNat e.toNat ↔ hz * chbwDivisor m e ≤ 26000000 := by
  rw [chbwValue_eq, le_div_iff₀ (by exact_mod_cast chbwDivisor_pos m e)]
  exact_mod_cast Iff.rfl

theorem ratValue_of_chbwDec {m e : BitVec 2} {s : State} {n d : BitVec 64}
    (h : exec (.chbwDec m e) s = .next (s.withOk (.rat n d))) : ratValue n d = chbwValue m.toNat e.toNat := by
  have hle := chbwDivisor_le m e
  rw [ratValue_of_answer (by decide) (by omega) h, chbwValue_eq, Config.fxosc]
  rfl

/-- `c` is the narrowest of the settings `l` that are wide enough for `hz`. -/
structure Narrowest (hz : Nat) (l : List (BitVec 2 × BitVec 2)) (c : BitVec 2 × BitVec 2) : Prop where
  wide : hz * chbwDivisor c.1 c.2 ≤ 26000000
  narrow : ∀ c' ∈ l, hz * chbwDivisor c'.1 c'.2 ≤ 26000000 → chbwDivisor c'.1 c'.2 ≤ chbwDivisor c.1 c.2

/-- The search over settings that narrow keeps the narrowest that is wide enough. -/
theorem chbwSearch_narrowest {hz : Nat} (l : List (BitVec 2 × BitVec 2)) {best : BitVec 2 × BitVec 2}
    (hbest : hz * chbwDivisor best.1 best.2 ≤ 26000000)
    (hl : (best :: l).Pairwise fun c c' => chbwDivisor c.1 c.2 ≤ chbwDivisor c'.1 c'.2) :
    Narrowest hz (best :: l) (chbwSearch hz best l) := by
  induction l generalizing best with
  | nil => exact ⟨hbest, by simp [chbwSearch]⟩
  | cons c l ih =>
    obtain ⟨hle, hl⟩ := List.pairwise_cons.mp hl
    unfold chbwSearch
    split_ifs with hc
    · obtain ⟨hwide, hnarrow⟩ := ih hc hl
      refine ⟨hwide, List.forall_mem_cons.mpr ⟨fun _ => ?_, hnarrow⟩⟩
      exact (hle c List.mem_cons_self).trans (hnarrow c List.mem_cons_self hc)
    · obtain ⟨hlc, hll⟩ := List.pairwise_cons.mp hl
      have hl' := List.pairwise_cons.mpr ⟨fun c' hc' => hle c' (List.mem_cons_of_mem c hc'), hll⟩
      obtain ⟨hwide, hnarrow⟩ := ih hbest hl'
      obtain ⟨hb, hrest⟩ := List.forall_mem_cons.mp hnarrow
      exact ⟨hwide, List.forall_mem_cons.mpr ⟨hb, List.forall_mem_cons.mpr ⟨fun h => absurd h hc, hrest⟩⟩⟩

theorem mem_chbwSettings (m e : BitVec 2) : (m, e) ∈ chbwSettings := by
  revert m e
  decide

theorem chbwSettings_pairwise :
    ((0, 0) :: chbwSettings).Pairwise fun c c' => chbwDivisor c.1 c.2 ≤ chbwDivisor c'.1 c'.2 := by
  decide

theorem exec_chbwEnc_of_wide {hz : BitVec 32} (h : 812500 < hz.toNat) (s : State) :
    exec (.chbwEnc hz) s = .next (s.withError 7 0x0026) := by
  have hwide : 32 * hz.toNat > Config.fxosc := by rw [Config.fxosc]; omega
  simp only [exec, execChbwEnc, hwide, if_true]
  rw [raise_outOfRange]
  rfl

theorem exec_chbwEnc_of_le {hz : BitVec 32} (h : hz.toNat ≤ 812500) (s : State) :
    ∃ m e, exec (.chbwEnc hz) s = .next (s.withOk (.chbw m e)) ∧ Narrowest hz.toNat chbwSettings (m, e) := by
  have hok : ¬ 32 * hz.toNat > Config.fxosc := by rw [Config.fxosc]; omega
  obtain ⟨hwide, hnarrow⟩ := chbwSearch_narrowest chbwSettings (hz := hz.toNat) (best := (0, 0))
    (by rw [show chbwDivisor 0 0 = 32 from rfl]; omega) chbwSettings_pairwise
  refine ⟨_, _, ?_, hwide, (List.forall_mem_cons.mp hnarrow).2⟩
  simp only [exec, execChbwEnc, hok, if_false]
  rfl

theorem narrowest_of_exec_chbwEnc {hz : BitVec 32} {m e : BitVec 2} {s : State}
    (h : exec (.chbwEnc hz) s = .next (s.withOk (.chbw m e))) : Narrowest hz.toNat chbwSettings (m, e) := by
  rcases Nat.lt_or_ge 812500 hz.toNat with hlt | hle
  · rw [exec_chbwEnc_of_wide hlt] at h
    exact absurd h next_withError_ne_withOk
  · obtain ⟨m', e', h', hn⟩ := exec_chbwEnc_of_le hle s
    obtain ⟨rfl, rfl⟩ := Result.chbw.inj (next_withOk_inj.mp (h.symm.trans h'))
    exact hn

/-! ### The frequency word -/

theorem freqWord_bounds (hz : BitVec 32) :
    2 * freqWord hz * 26000000 ≤ 2 * (hz.toNat * 2 ^ 16) + 26000000 ∧
      2 * (hz.toNat * 2 ^ 16) < (2 * freqWord hz + 1) * 26000000 :=
  roundHalfUp_bounds _ (by decide)

/-- R141's rounding, in exact rationals. -/
theorem freqWord_bounds_rat (hz : BitVec 32) :
    (freqWord hz : ℚ) - 1 / 2 ≤ hz.toNat * 2 ^ 16 / 26000000 ∧
      (hz.toNat : ℚ) * 2 ^ 16 / 26000000 < freqWord hz + 1 / 2 := by
  obtain ⟨hlower, hupper⟩ := freqWord_bounds hz
  have hlower : (2 * freqWord hz * 26000000 : ℚ) ≤ 2 * (hz.toNat * 2 ^ 16) + 26000000 := by exact_mod_cast hlower
  have hupper : (2 * (hz.toNat * 2 ^ 16) : ℚ) < (2 * freqWord hz + 1) * 26000000 := by exact_mod_cast hupper
  rw [le_div_iff₀ (by norm_num), div_lt_iff₀ (by norm_num)]
  constructor <;> linarith

theorem freqWord_lt_iff (hz : BitVec 32) : freqWord hz < 2 ^ 22 ↔ hz.toNat ≤ 1663999801 := by
  have := freqWord_bounds hz
  omega

theorem exec_freqEnc_of_lt {hz : BitVec 32} (h : freqWord hz < 2 ^ 22) (s : State) :
    exec (.freqEnc hz) s = .next (s.withOk (.freq (BitVec.ofNat 22 (freqWord hz)) (BitVec.ofNat 8 (freqWord hz / 65536))
      (BitVec.ofNat 8 (freqWord hz / 256 % 256)) (BitVec.ofNat 8 (freqWord hz % 256)))) := by
  have hok : ¬ freqWord hz ≥ 2 ^ Config.freqBits := Nat.not_le.mpr h
  have hmod (n : Nat) : BitVec.ofNat 8 (n % 256) = BitVec.ofNat 8 n := BitVec.eq_of_toNat_eq (by simp)
  simp only [exec, execFreqEnc, hok, if_false, hmod, Nat.shiftRight_eq_div_pow]
  rfl

theorem exec_freqEnc_of_ge {hz : BitVec 32} (h : 2 ^ 22 ≤ freqWord hz) (s : State) :
    exec (.freqEnc hz) s = .next (s.withError 7 0x0020) := by
  have hbad : freqWord hz ≥ 2 ^ Config.freqBits := h
  simp only [exec, execFreqEnc, hbad, if_true]
  rw [raise_outOfRange]
  rfl

/-- An answer's word, and its three bytes put together, are the rounded word. -/
theorem freqWord_of_exec_freqEnc {hz : BitVec 32} {f : BitVec 22} {f2 f1 f0 : Byte} {s : State}
    (h : exec (.freqEnc hz) s = .next (s.withOk (.freq f f2 f1 f0))) :
    f.toNat = freqWord hz ∧ 65536 * f2.toNat + 256 * f1.toNat + f0.toNat = freqWord hz := by
  rcases Nat.lt_or_ge (freqWord hz) (2 ^ 22) with hlt | hge
  · rw [exec_freqEnc_of_lt hlt, next_withOk_inj] at h
    obtain ⟨rfl, rfl, rfl, rfl⟩ := Result.freq.inj h
    simp only [BitVec.toNat_ofNat]
    omega
  · rw [exec_freqEnc_of_ge hge] at h
    exact absurd h next_withError_ne_withOk

/-! ### RSSI -/

theorem rssiDbm2_toInt (offset : BitVec 8) (raw : Byte) :
    (rssiDbm2 offset raw).toInt = raw.toInt - 2 * (offset.toNat : Int) := by
  have hlo := BitVec.le_toInt raw
  have hhi := BitVec.toInt_lt (x := raw)
  have hnat : (2#16 * offset.setWidth 16).toNat = 2 * offset.toNat := by
    rw [BitVec.toNat_mul, BitVec.toNat_ofNat, BitVec.toNat_setWidth]
    omega
  have hoff : (2#16 * offset.setWidth 16).toInt = 2 * (offset.toNat : Int) := by
    rw [BitVec.toInt_eq_toNat_of_lt (by omega), hnat]
    rfl
  rw [rssiDbm2, BitVec.toInt_sub, BitVec.toInt_signExtend_of_le (by decide), hoff]
  exact Int.bmod_eq_of_le (by omega) (by omega)

/-! ### The statements -/

/-- Settles O33: inside the domain the grid accepts, and the point it rounds to is the nearest. -/
theorem drateEncGivesTheNearestPoint : Obligations.DrateEncGivesTheNearestPoint := by
  intro baud s
  refine ⟨fun hlo hhi => ?_, fun h => exec_drateEnc_of_none ((drateGrid_eq_none_iff baud).mpr h) s⟩
  have hsome : drateGrid baud ≠ none := by rw [Ne, drateGrid_eq_none_iff]; omega
  obtain ⟨m, e, h⟩ := exists_gridEncodes (a := 8) (b := 4) (by decide) hsome
  refine ⟨m, e, (exec_drateEnc_iff s).mpr h, fun m' e' hne => ?_⟩
  rw [drateValue_eq, drateValue_eq]
  exact h.abs_sub_lt (by decide) hne

/-- Settles O34: inside the domain the grid accepts, and the point it rounds to is the nearest. -/
theorem devEncGivesTheNearestPoint : Obligations.DevEncGivesTheNearestPoint := by
  intro hz s
  refine ⟨fun hlo hhi => ?_, fun h => exec_devEnc_of_none ((devGrid_eq_none_iff hz).mpr h) s⟩
  have hsome : devGrid hz ≠ none := by rw [Ne, devGrid_eq_none_iff]; omega
  obtain ⟨m, e, h⟩ := exists_gridEncodes (a := 3) (b := 3) (by decide) hsome
  refine ⟨m, e, (exec_devEnc_iff s).mpr h, fun m' e' hne => ?_⟩
  rw [devValue_eq, devValue_eq]
  exact h.abs_sub_lt (by decide) hne

/-- Settles O35: the search keeps the narrowest setting that is wide enough. -/
theorem chbwEncGivesTheNarrowestWideEnough : Obligations.ChbwEncGivesTheNarrowestWideEnough := by
  intro hz s
  refine ⟨fun hle => ?_, fun hlt => exec_chbwEnc_of_wide hlt s⟩
  obtain ⟨m, e, h, hwide, hnarrow⟩ := exec_chbwEnc_of_le hle s
  refine ⟨m, e, h, (le_chbwValue_iff _ _ _).mpr hwide, fun m' e' hne hwide' => ?_⟩
  rw [le_chbwValue_iff] at hwide'
  rw [chbwValue_lt_iff]
  exact Nat.lt_of_le_of_ne (hnarrow (m', e') (mem_chbwSettings m' e') hwide') (chbwDivisor_ne hne)

/-- Settles O36: the pairs answered are the grid's values, which are ordered in the index. -/
theorem gridsAreStrictlyOrdered : Obligations.GridsAreStrictlyOrdered := by
  intro s n d n' d'
  refine ⟨fun m m' e e' hlt h h' => ?_, fun m m' e e' hlt h h' => ?_, fun m m' e e' hlt h h' => ?_⟩
  · rw [ratValue_of_drateDec h, ratValue_of_drateDec h', drateValue_eq, drateValue_eq]
    exact gridHz_lt m.isLt m'.isLt hlt
  · rw [ratValue_of_devDec h, ratValue_of_devDec h', devValue_eq, devValue_eq]
    exact gridHz_lt m.isLt m'.isLt hlt
  · rw [ratValue_of_chbwDec h, ratValue_of_chbwDec h', chbwValue_lt_iff]
    exact chbwDivisor_lt hlt

/-- Settles O32: three bytes in a row are one number; the other pairs are as the decoders write them. -/
theorem decodersGiveTheExactPairs : Obligations.DecodersGiveTheExactPairs := by
  intro s
  refine ⟨fun f2 f1 f0 => ?_, fun m e => rfl, fun m e => rfl, fun m e => rfl⟩
  rw [← toNat_append_bytes]
  rfl

/-- Settles O31: the rounded word fits 22 bits exactly up to 1 663 999 801 Hz. -/
theorem freqEncRoundsToTheWord : Obligations.FreqEncRoundsToTheWord := by
  intro hz s
  refine ⟨fun hle => ?_, fun hlt => exec_freqEnc_of_ge ?_ s⟩
  · have hlt := (freqWord_lt_iff hz).mpr hle
    obtain ⟨hlower, hupper⟩ := freqWord_bounds_rat hz
    exact ⟨freqWord hz, hlt, hlower, hupper, exec_freqEnc_of_lt hlt s⟩
  · exact Nat.not_lt.mp fun h => Nat.not_le.mpr hlt ((freqWord_lt_iff hz).mp h)

/-- Settles O37: half a step for the frequency; for the data rate and the deviation the nearest point, whose error is
half of one of at least 2 base - 1 half steps; for the bandwidth the search. -/
theorem convertersRoundTrip : Obligations.ConvertersRoundTrip := by
  intro x s n d
  refine ⟨fun f f2 f1 f0 h hd => ?_, fun m e h hd => ?_, fun m e h hd => ?_, fun m e h hd => ?_⟩
  · obtain ⟨hlower, hupper⟩ := freqWord_bounds_rat x
    rw [ratValue_of_freqDec hd, (freqWord_of_exec_freqEnc h).2, abs_le]
    constructor <;> linarith
  · rw [exec_drateEnc_iff] at h
    rw [ratValue_of_drateDec hd, drateValue_eq]
    refine ⟨(h.relative_error (by decide)).trans_eq (by norm_num), fun m' e' => ?_⟩
    rw [drateValue_eq]
    exact h.abs_sub_le (by decide) m' e'
  · rw [exec_devEnc_iff] at h
    rw [ratValue_of_devDec hd, devValue_eq]
    refine ⟨(h.relative_error (by decide)).trans_eq (by norm_num), fun m' e' => ?_⟩
    rw [devValue_eq]
    exact h.abs_sub_le (by decide) m' e'
  · obtain ⟨hwide, hnarrow⟩ := narrowest_of_exec_chbwEnc h
    rw [ratValue_of_chbwDec hd]
    refine ⟨(le_chbwValue_iff _ _ _).mpr hwide, fun m' e' hwide' => ?_⟩
    rw [← not_lt, chbwValue_lt_iff, not_lt]
    exact hnarrow (m', e') (mem_chbwSettings m' e') ((le_chbwValue_iff _ _ _).mp hwide')

/-- Settles O38: rounding and nearest points are monotone, and what is wide enough for y is so for x. -/
theorem encodersAreMonotone : Obligations.EncodersAreMonotone := by
  intro x y s hxy
  refine ⟨fun f f' f2 f1 f0 f2' f1' f0' h h' => ?_, fun m m' e e' h h' => ?_, fun m m' e e' h h' => ?_,
    fun m m' e e' h h' => ?_⟩
  · rw [(freqWord_of_exec_freqEnc h).1, (freqWord_of_exec_freqEnc h').1]
    exact roundHalfUp_mono _ (Nat.mul_le_mul_right _ hxy)
  · exact ((exec_drateEnc_iff s).mp h).mono ((exec_drateEnc_iff s).mp h') (by decide) hxy
  · exact ((exec_devEnc_iff s).mp h).mono ((exec_devEnc_iff s).mp h') (by decide) hxy
  · have hwide := (Nat.mul_le_mul_right _ hxy).trans (narrowest_of_exec_chbwEnc h').wide
    have hle := (narrowest_of_exec_chbwEnc h).narrow (m', e') (mem_chbwSettings m' e') hwide
    exact Nat.not_lt.mp fun hlt => Nat.not_lt.mpr hle (chbwDivisor_lt hlt)

/-- Settles O39: the 16-bit subtraction does not wrap, for any offset. -/
theorem rssiDbmIsTheSignedByteLessTheOffset : Obligations.RssiDbmIsTheSignedByteLessTheOffset := by
  intro raw s
  refine ⟨rssiDbm2 Config.rssiOffset raw, rfl, ?_, fun raw' d' hlt h => ?_⟩
  · rw [rssiDbm2_toInt, BitVec.toInt_eq_toNat_cond]
    split_ifs <;> omega
  · obtain rfl := Result.rssi.inj (next_withOk_inj.mp h)
    rw [rssiDbm2_toInt, rssiDbm2_toInt]
    omega

end Sys2Proof.Machine
end

section
/-! SUPPORT and PROOFS for 43_status_monitor.md. First the fields of MARCSTATE and of a byte count as numbers, and the
error details; then the refusal or the one read of a machine-state request (`AnswersMarcstate`) and the sample of a
byte-count register, from which every statement about a poll follows. -/

namespace Sys2Proof.Machine

/-! ### Fields and details as numbers -/

theorem marcCodeOf_toNat (v : Byte) : (marcCodeOf v).toNat = v.toNat % 32 := by
  simp [marcCodeOf]

theorem fifoCountOf_eq_ofNat_mod (v : Byte) : fifoCountOf v = BitVec.ofNat 7 (v.toNat % 128) :=
  extractLsb'_zero_eq_ofNat_mod v 7

theorem fifoCountOf_toNat (v : Byte) : (fifoCountOf v).toNat = v.toNat % 128 := by
  simp [fifoCountOf]

theorem fifoFaultOf_eq (v : Byte) : fifoFaultOf v = decide (128 ≤ v.toNat) := getLsbD_seven_eq v

/-- Detail 0x06cc (R212). -/
theorem raise_unknownTarget (s : State) (code : BitVec 5) :
    s.raise (.illegalRequest (.unknownTarget code)) = s.withError 8 (BitVec.ofNat 16 (0x0600 + code.toNat)) := by
  have hinfo : (Illegal.unknownTarget code).info = BitVec.ofNat 16 (0x0600 + code.toNat) := by
    revert code
    decide +kernel
  rw [← hinfo]
  exact raise_eq_withError rfl

theorem raise_invalidState (s : State) (code : BitVec 5) :
    s.raise (.invalidState code) = s.withError 4 (BitVec.ofNat 16 code.toNat) := by
  rw [BitVec.ofNat_toNat]
  exact raise_eq_withError rfl

theorem raise_crcMismatch (s : State) (lqi : Byte) :
    s.raise (.crcMismatch lqi) = s.withError 3 (BitVec.ofNat 16 lqi.toNat) := by
  rw [BitVec.ofNat_toNat]
  exact raise_eq_withError rfl

/-- The error of a fault carries the count, whichever direction it is (R212). -/
theorem raise_faultError (s : State) (d : Dir) (c : BitVec 7) :
    s.raise (faultError d c) = s.withError (faultError d c).code (BitVec.ofNat 16 c.toNat) := by
  rw [BitVec.ofNat_toNat]
  cases d <;> exact raise_eq_withError rfl

/-! ### Decoding the machine state -/

/-- A code up to 0x16 is a state's, and decoding goes on with that state (R171). -/
theorem decodeMarc_of_known {v : Byte} (hv : v.toNat % 32 ≤ 0x16) (s : State) (k : MarcState → State → State) :
    ∃ st : MarcState, st.code.toNat = v.toNat % 32 ∧ s.decodeMarc v k = k st s := by
  have hsome := marcOfCode_isSome (marcCodeOf v)
  rw [marcCodeOf_toNat, decide_eq_true hv] at hsome
  rcases decodeMarc_cases s v k with ⟨hnone, -⟩ | ⟨st, hst, h⟩
  · simp [hnone] at hsome
  · exact ⟨st, by rw [code_of_marcOfCode hst, marcCodeOf_toNat], h⟩

/-- A code above 0x16 is no state's (R171). -/
theorem decodeMarc_of_unknown {v : Byte} (hv : 0x16 < v.toNat % 32) (s : State) (k : MarcState → State → State) :
    s.decodeMarc v k = s.withError 4 (BitVec.ofNat 16 (v.toNat % 32)) := by
  have hsome := marcOfCode_isSome (marcCodeOf v)
  rw [marcCodeOf_toNat, decide_eq_false (Nat.not_le.mpr hv)] at hsome
  rcases decodeMarc_cases s v k with ⟨-, h⟩ | ⟨st, hst, -⟩
  · rw [h, raise_invalidState, marcCodeOf_toNat]
  · simp [hst] at hsome

/-- `i` reads MARCSTATE once, decodes the byte received, and answers `f` of the state. -/
def AnswersMarcstate (i : Instr) (f : MarcState → Result) : Prop :=
  ∀ s : State, exec i s = .next (s.busRequest msReadFrame fun data t =>
    t.decodeMarc (data.headD 0x00#8) fun st u => u.respond (f st))

section
variable {i : Instr} {f : MarcState → Result} {s : State} {status v : Byte}

theorem AnswersMarcstate.received (hi : AnswersMarcstate i f) (hx : s.exchange 1 = .received status [v]) :
    exec i s = .next ((s.afterExchange [0xF5#8, 0x00#8] status [v]).decodeMarc v fun st u => u.respond (f st)) := by
  rw [hi, msReadFrame, busRequest_ok, transact_received (data := [v]) hx]
  rfl

theorem AnswersMarcstate.known (hi : AnswersMarcstate i f) (hx : s.exchange 1 = .received status [v])
    (hv : v.toNat % 32 ≤ 0x16) :
    ∃ st : MarcState, st.code.toNat = v.toNat % 32 ∧
      exec i s = .next ((s.afterExchange [0xF5#8, 0x00#8] status [v]).withOk (f st)) := by
  obtain ⟨st, hcode, hst⟩ := decodeMarc_of_known hv (s.afterExchange [0xF5#8, 0x00#8] status [v])
    fun st u => u.respond (f st)
  exact ⟨st, hcode, by rw [hi.received hx, hst, respond_eq_withOk]⟩

theorem AnswersMarcstate.unknown (hi : AnswersMarcstate i f) (hx : s.exchange 1 = .received status [v])
    (hv : 0x16 < v.toNat % 32) :
    exec i s = .next ((s.afterExchange [0xF5#8, 0x00#8] status [v]).withError 4 (BitVec.ofNat 16 (v.toNat % 32))) := by
  rw [hi.received hx, decodeMarc_of_unknown hv]

theorem AnswersMarcstate.failed (hi : AnswersMarcstate i f) {e : Nat} (hx : s.exchange 1 = .failed e) :
    exec i s = .next (s.afterFailure [0xF5#8, 0x00#8] e) := by
  rw [hi, msReadFrame, busRequest_ok, transact_failed hx, raise_record]
  rfl

end

theorem msMatchFrame_of_known {target : BitVec 5} (h : target.toNat ≤ 0x16) : msMatchFrame target = msReadFrame := by
  have hsome := marcOfCode_isSome target
  rw [decide_eq_true h] at hsome
  simp [msMatchFrame, targetError, Option.isNone_eq_false_iff.mpr hsome, admitUnless, msReadFrame]

theorem msMatchFrame_of_unknown {target : BitVec 5} (h : 0x16 < target.toNat) :
    msMatchFrame target = .error (.illegalRequest (.unknownTarget target)) := by
  have hsome := marcOfCode_isSome target
  rw [decide_eq_false (Nat.not_le.mpr h), Option.isSome_eq_false_iff] at hsome
  simp [msMatchFrame, targetError, hsome, admitUnless]

theorem msRead_answersMarcstate : AnswersMarcstate .msRead .mstate := fun _ => rfl

theorem msMatch_answersMarcstate {target : BitVec 5} (h : target.toNat ≤ 0x16) :
    AnswersMarcstate (.msMatch target) fun st => .matched (st.code = target) st := by
  intro s
  rw [← msMatchFrame_of_known h]
  rfl

/-! ### Samples of a byte-count register -/

/-- The frame of a direction's byte-count register (R176). -/
theorem fifoBytesFrame_eq (d : Dir) : statusReadFrame (fifoBytesAddr d) = ⟨fifoBytesHeader d, [0x00#8]⟩ := by
  cases d <;> rfl

section
variable {s : State} {k : BitVec 7 → Bool → State → State}

theorem sampleFifo_received {status v : Byte} (hx : s.exchange 1 = .received status [v]) (d : Dir) :
    s.sampleFifo d k =
      k (fifoCountOf v) (fifoFaultOf v) (s.afterExchange [fifoBytesHeader d, 0x00#8] status [v]) := by
  rw [State.sampleFifo, fifoCountFrame, fifoBytesFrame_eq, busRequest_ok, transact_received (data := [v]) hx]
  rfl

theorem sampleFifo_failed {e : Nat} (hx : s.exchange 1 = .failed e) (d : Dir) :
    s.sampleFifo d k = s.afterFailure [fifoBytesHeader d, 0x00#8] e := by
  rw [State.sampleFifo, fifoCountFrame, fifoBytesFrame_eq, busRequest_ok, transact_failed hx, raise_record]
  rfl

end

theorem noteUnderflow_tx (s : State) (f : Bool) : s.noteUnderflow .tx f = { s with ufSeen := s.ufSeen || f } := by
  cases f
  · rw [Bool.or_false]
    rfl
  · rw [Bool.or_true]
    rfl

theorem exec_fifoPoll_received {s : State} {status v : Byte} (hx : s.exchange 1 = .received status [v]) (d : Dir) :
    exec (.fifoPoll d) s = .next
      (((s.afterExchange [fifoBytesHeader d, 0x00#8] status [v]).noteUnderflow d (decide (128 ≤ v.toNat))).withOk
        (.fifoCount (BitVec.ofNat 7 (v.toNat % 128)) (decide (128 ≤ v.toNat)))) := by
  rw [exec, execFifoPoll, sampleFifo_received hx, respond_eq_withOk, fifoFaultOf_eq, fifoCountOf_eq_ofNat_mod]

/-- What the sample `v` does to a stability wait (R180), in numbers: for both directions alike. -/
theorem judgeSample_eq (s : State) (d : Dir) (v : Byte) :
    s.judgeSample d (fifoCountOf v) (fifoFaultOf v) =
      if 128 ≤ v.toNat then
        ((s.noteUnderflow d true).clearStb d).withError (faultError d (fifoCountOf v)).code
          (BitVec.ofNat 16 (v.toNat % 128))
      else if v.toNat ≠ 0 ∧ s.stbValid d = true ∧ (s.stbPrev d).toNat = v.toNat then
        (s.clearStb d).withOk (.stable true (BitVec.ofNat 7 v.toNat))
      else (s.setStb d (BitVec.ofNat 7 v.toNat)).withOk (.stable false (BitVec.ofNat 7 v.toNat)) := by
  rw [fifoFaultOf_eq]
  by_cases hfault : 128 ≤ v.toNat
  · rw [if_pos hfault, decide_eq_true hfault, State.judgeSample, if_pos rfl, raise_faultError, fifoCountOf_toNat]
  · have hmod : v.toNat % 128 = v.toNat := Nat.mod_eq_of_lt (Nat.not_le.mp hfault)
    have hstable : (fifoCountOf v ≠ 0 ∧ s.stbValid d = true ∧ s.stbPrev d = fifoCountOf v) ↔
        (v.toNat ≠ 0 ∧ s.stbValid d = true ∧ (s.stbPrev d).toNat = v.toNat) := by
      rw [Ne, ← BitVec.toNat_inj, ← BitVec.toNat_inj (x := s.stbPrev d), fifoCountOf_toNat, hmod]
      rfl
    rw [if_neg hfault, decide_eq_false hfault, State.judgeSample, if_neg Bool.false_ne_true]
    rw [if_congr hstable rfl rfl, respond_eq_withOk, respond_eq_withOk, fifoCountOf_eq_ofNat_mod, hmod]

theorem exec_stableStep_received {s : State} {status v : Byte} (hx : s.exchange 1 = .received status [v]) (d : Dir) :
    exec (.stableStep d) s = .next
      ((s.afterExchange [fifoBytesHeader d, 0x00#8] status [v]).judgeSample d (fifoCountOf v) (fifoFaultOf v)) := by
  rw [exec, execStableStep, sampleFifo_received hx]

/-! ### Packet frames -/

theorem exec_txFrame_of_le {payload : List Byte} (addr : Byte) (s : State) (hn : payload.length ≤ 62) :
    exec (.txFrame addr payload) s = .next (s.withOk (.frame ([BitVec.ofNat 8 payload.length, addr] ++ payload))) := by
  have hfits : ¬ payload.length + 2 > Config.fifoCap := Nat.not_lt.mpr (Nat.add_le_add_right hn 2)
  rw [exec, execTxFrame, if_neg hfits]
  rfl

theorem exec_txFrame_of_lt {payload : List Byte} (addr : Byte) (s : State) (hn : 62 < payload.length) :
    exec (.txFrame addr payload) s = .next (s.withError 5 (BitVec.ofNat 16 (payload.length + 2))) := by
  have hlong : payload.length + 2 > Config.fifoCap := Nat.add_lt_add_right hn 2
  rw [exec, execTxFrame, if_pos hlong, raise_userInputError]

theorem exec_rxFrame_of_le (len addr : Byte) (rest : List Byte) (hn : ([len, addr] ++ rest).length ≤ 64)
    (s : State) : exec (.rxFrame ([len, addr] ++ rest)) s = .next (s.withOk (.framePrefix len addr)) :=
  congrArg Host.Outcome.next (if_neg (Nat.not_lt.mpr hn))

theorem exec_rxFrame_of_long {buf : List Byte} (hn : 64 < buf.length) (s : State) :
    exec (.rxFrame buf) s = .next (s.withError 5 (BitVec.ofNat 16 buf.length)) := by
  rw [← raise_userInputError]
  exact congrArg Host.Outcome.next (if_pos hn)

/-- A buffer of less than two bytes is empty or a single byte. -/
theorem exec_rxFrame_of_short {buf : List Byte} (hn : buf.length < 2) (s : State) :
    exec (.rxFrame buf) s = .next (s.withError 5 (BitVec.ofNat 16 buf.length)) := by
  match buf, hn with
  | [], _ => rfl
  | [_], _ => rfl

/-! ### The statements -/

/-- Settles O40: the code is known, or it is not. -/
theorem msDecDecodesTheCode : Obligations.MsDecDecodesTheCode := by
  intro v s
  refine ⟨fun hv => ?_, fun hv => ?_⟩
  · obtain ⟨st, hcode, hst⟩ := decodeMarc_of_known hv s fun st t => t.respond (.mstate st)
    exact ⟨st, hcode, congrArg Host.Outcome.next hst⟩
  · exact congrArg Host.Outcome.next (decodeMarc_of_unknown hv s _)

/-- Settles O41: the read completes with one byte, or fails. -/
theorem msReadDecodesMarcstate : Obligations.MsReadDecodesMarcstate := by
  intro s
  refine ⟨fun status data hx => ?_, fun e hx => msRead_answersMarcstate.failed hx⟩
  obtain ⟨v, rfl⟩ := data_of_exchange_one hx
  exact ⟨v, rfl, msRead_answersMarcstate.known hx, msRead_answersMarcstate.unknown hx⟩

/-- Settles O42: with a known target it is `MS_READ` but for the answer. -/
theorem msMatchComparesOneRead : Obligations.MsMatchComparesOneRead := by
  intro target s
  refine ⟨fun h => ?_, fun h => ?_⟩
  · rw [exec, execMsMatch, msMatchFrame_of_unknown h, busRequest_error, raise_unknownTarget]
  · have hi := msMatch_answersMarcstate h
    refine ⟨fun status data hx => ?_, fun e hx => hi.failed hx⟩
    obtain ⟨v, rfl⟩ := data_of_exchange_one hx
    refine ⟨v, rfl, fun hv => ?_, hi.unknown hx⟩
    obtain ⟨st, hcode, hst⟩ := hi.known hx hv
    refine ⟨st, hcode, ?_⟩
    simpa only [← hcode, BitVec.toNat_inj] using hst

/-- Settles O43: both directions answer the same; only TX notes the fault. -/
theorem fifoPollReportsTheCount : Obligations.FifoPollReportsTheCount := by
  intro s
  refine ⟨fun status data hx => ?_, fun e d hx => congrArg Host.Outcome.next (sampleFifo_failed hx d)⟩
  obtain ⟨v, rfl⟩ := data_of_exchange_one hx
  refine ⟨v, rfl, exec_fifoPoll_received hx .rx, ?_⟩
  rw [exec_fifoPoll_received hx .tx, noteUnderflow_tx]
  rfl

/-- Settles O44: per direction, `clearStb` is the update of that one field. -/
theorem stableStartDiscardsTheSample : Obligations.StableStartDiscardsTheSample :=
  fun _ => ⟨rfl, rfl⟩

/-- Settles O45: the judgement of `judgeSample_eq`, for each direction. -/
theorem stableStepJudgesTheSample : Obligations.StableStepJudgesTheSample := by
  intro s
  refine ⟨fun status data hx => ?_, fun e d hx => congrArg Host.Outcome.next (sampleFifo_failed hx d)⟩
  obtain ⟨v, rfl⟩ := data_of_exchange_one hx
  refine ⟨v, rfl, ?_, ?_⟩
  · rw [exec_stableStep_received hx, judgeSample_eq]
    rfl
  · rw [exec_stableStep_received hx, judgeSample_eq]
    rfl

/-- Settles O47: the overflow flag first, then LQI bit 7. -/
theorem rxOutcomeChecksOverflowThenCrc : Obligations.RxOutcomeChecksOverflowThenCrc := by
  intro lqi len s
  refine ⟨rfl, fun hfail => ?_, fun hpass => ?_⟩
  · rw [exec, execRxOutcome, if_neg Bool.false_ne_true, crcFailed_eq, if_pos (decide_eq_true hfail), raise_crcMismatch]
  · rw [exec, execRxOutcome, if_neg Bool.false_ne_true, crcFailed_eq,
      decide_eq_false (Nat.not_le.mpr hpass), if_neg Bool.false_ne_true, respond_eq_withOk]

/-- Settles O48: a tracker that is clear is cleared without effect. -/
theorem txOutcomeReadsAndClearsTheTracker : Obligations.TxOutcomeReadsAndClearsTheTracker := by
  intro s
  refine ⟨fun hseen => ?_, fun hclear => ?_, rfl⟩
  · rw [exec, execTxOutcome, if_pos hseen]
    rfl
  · have hsame : s.setUfSeen false = s := by rw [← hclear, State.setUfSeen]
    rw [exec, execTxOutcome, hclear, if_neg Bool.false_ne_true, hsame, respond_eq_withOk]

/-- Settles O49: a frame must fit one FIFO transfer, and a buffer must hold its first two bytes. -/
theorem framesAreBuiltAndParsed : Obligations.FramesAreBuiltAndParsed := by
  intro addr payload buf s
  refine ⟨exec_txFrame_of_le addr s, exec_txFrame_of_lt addr s, ?_, ?_⟩
  · rintro len rfl hn
    exact exec_rxFrame_of_le len addr payload hn s
  · rintro (hshort | hlong)
    · exact exec_rxFrame_of_short hshort s
    · exact exec_rxFrame_of_long hlong s

end Sys2Proof.Machine
end

section
/-! SUPPORT and PROOFS for 30_encoding.md: the decoder and the encoder undo each other. First that the row of an opcode
reads what the encoder lays out, then, field by field, that what a row reads is laid out so. -/

namespace Sys2Proof

/-! ### Encoding, then decoding -/

@[simp] theorem readRef_refBytes_all (r : Ref) : readRef (refBytes r) = .ok (r, []) := by
  rw [← List.append_nil (refBytes r), readRef_refBytes]

@[simp] theorem readWord_wordBytes_all (v : BitVec 32) : readWord (wordBytes v) = .ok (v, []) := by
  rw [← List.append_nil (wordBytes v), readWord_wordBytes]

theorem readBytes_bytesWithLength_all {data : List Byte} (h : lengthFits data = true) :
    readBytes (bytesWithLength data) = .ok (data, []) := by
  rw [← List.append_nil (bytesWithLength data), readBytes_bytesWithLength _ _ (of_decide_eq_true h)]

@[simp] theorem decodeError_ok_bind {α β : Type} (a : α) (f : α → Except DecodeError β) :
    (Except.ok a >>= f) = f a := rfl

/-- A row of R80 reads the fields of its request to the last byte. -/
theorem decodePrefix_of_encodeInput {i : Instr} (hi : i.wellFormed = true) {op : Byte} {xs : List Byte}
    (h : encodeInput i = .request op xs) : decodePrefix op xs = .ok (i, []) := by
  cases i <;> cases h
  case fifoWrite | patableWrite | rxFrame | txFrame => simp [decodePrefix, readBytes_bytesWithLength_all hi]
  all_goals simp [decodePrefix]

/-- A header byte belongs to the row it was encoded from (R70 to R73), row by row over all addresses. -/
theorem decodeHeader_of_encodeInput {i : Instr} (hi : i.wellFormed = true) {b : Byte} (h : encodeInput i = .header b) :
    decodeHeader b = i := by
  cases i <;> cases h
  case hdrConfigReadSingle a | hdrConfigWriteSingle a | hdrConfigReadBurst a | hdrConfigWriteBurst a |
      hdrStatusRead a | hdrReservedWriteBurstStatus a =>
    revert a
    decide +kernel
  case hdrStrobe r a =>
    revert r a
    decide +kernel
  case hdrPatable r b | hdrReserved2F r b =>
    revert r b
    decide +kernel
  case hdrRxfifo b | hdrTxfifo b | hdrReserved37 b =>
    revert b
    decide +kernel

/-- No instruction is encoded as a reset. -/
theorem encodeInput_request_or_header (i : Instr) :
    (∃ op xs, encodeInput i = .request op xs) ∨ ∃ b, encodeInput i = .header b := by
  cases i <;> simp [encodeInput]

/-! ### Decoding, then encoding -/

/-- What `read` takes from the front of the bytes is laid out as `layout` says. -/
def Reads {α : Type} (read : List Byte → Except DecodeError (α × List Byte)) (layout : α → List Byte) : Prop :=
  ∀ xs v rest, read xs = .ok (v, rest) → xs = layout v ++ rest

/-- A reader followed by more decoding has read its field. -/
theorem decodeError_bind_eq_ok {α β : Type} {x : Except DecodeError α} {f : α → Except DecodeError β} {b : β}
    (h : (x >>= f) = .ok b) : ∃ a, x = .ok a ∧ f a = .ok b := by
  cases x with
  | error e => cases h
  | ok a => exact ⟨a, rfl, h⟩

theorem reads_field {w : Nat} : Reads (readField w) fun v => [fieldByte v] := by
  intro xs v rest h
  cases xs with
  | nil => cases h
  | cons x xs =>
    rw [readField] at h
    split_ifs at h with hlt
    cases h
    have hx : fieldByte (x.setWidth w) = x := by
      apply BitVec.eq_of_toNat_eq
      rw [fieldByte, BitVec.toNat_setWidth, BitVec.toNat_setWidth, Nat.mod_eq_of_lt hlt, Nat.mod_eq_of_lt x.isLt]
    show x :: rest = fieldByte (x.setWidth w) :: rest
    rw [hx]

theorem reads_byte : Reads (readField 8) fun v => [v] := by
  intro xs v rest h
  have hxs : xs = fieldByte v :: rest := reads_field xs v rest h
  rwa [fieldByte, BitVec.setWidth_eq] at hxs

/-- The byte of a one-bit field. -/
theorem fieldByte_eq_bitByte : ∀ v : BitVec 1, fieldByte v = bitByte (v.getLsbD 0) := by decide

theorem reads_bit : Reads readBit fun b => [bitByte b] := by
  intro xs b rest h
  unfold readBit at h
  split at h
  · rename_i v _ hread
    cases h
    have hxs : xs = fieldByte v :: rest := reads_field xs v rest hread
    rwa [fieldByte_eq_bitByte] at hxs
  · cases h

theorem reads_dir : Reads readDir fun d => [dirByte d] := by
  intro xs d rest h
  obtain ⟨⟨b, ys⟩, hread, h⟩ := decodeError_bind_eq_ok h
  cases h
  rw [reads_bit xs b rest hread]
  cases b <;> rfl

theorem reads_ref : Reads readRef refBytes := by
  intro xs r rest h
  obtain ⟨⟨tag, ys⟩, htag, h⟩ := decodeError_bind_eq_ok h
  obtain ⟨⟨addr, zs⟩, haddr, h⟩ := decodeError_bind_eq_ok h
  cases h
  rw [reads_field xs tag ys htag, reads_field ys addr rest haddr]
  rfl

/-- Four bytes are the bytes of the word they make. -/
theorem wordBytes_of_append (b3 b2 b1 b0 : Byte) : wordBytes (b3 ++ b2 ++ b1 ++ b0) = [b3, b2, b1, b0] := by
  have hcat : (b3 ++ b2 ++ b1 ++ b0).toNat = ((b3.toNat * 256 + b2.toNat) * 256 + b1.toNat) * 256 + b0.toNat := by
    rw [toNat_append_byte, toNat_append_byte, toNat_append_byte]
  simp only [wordBytes, List.cons.injEq, and_true, ← BitVec.toNat_inj, BitVec.extractLsb'_toNat,
    Nat.shiftRight_eq_div_pow, hcat]
  omega

theorem reads_word : Reads readWord wordBytes := by
  intro xs v rest h
  match xs, h with
  | b3 :: b2 :: b1 :: b0 :: ys, h =>
    cases h
    rw [wordBytes_of_append]
    rfl

theorem reads_bytes : Reads readBytes bytesWithLength := by
  intro xs data rest h
  cases xs with
  | nil => cases h
  | cons n ys =>
    rw [readBytes] at h
    split_ifs at h with hle
    cases h
    rw [bytesWithLength, List.length_take, Nat.min_eq_left hle, BitVec.ofNat_toNat, BitVec.setWidth_eq,
      List.cons_append, List.take_append_drop]

/-- A `bytes[n]` operand is no longer than its u8 length says (R77). -/
theorem lengthFits_of_readBytes {xs data rest : List Byte} (h : readBytes xs = .ok (data, rest)) :
    lengthFits data = true := by
  cases xs with
  | nil => cases h
  | cons n ys =>
    rw [readBytes] at h
    split_ifs at h
    cases h
    have hn := n.isLt
    exact decide_eq_true ((List.length_take_le n.toNat ys).trans (by omega))

/-- `i` is well formed, and encoded as the opcode `op`, the bytes `done` and the bytes of `xs` before `rest`. -/
def EncodedAs (op : Byte) (done xs : List Byte) (i : Instr) (rest : List Byte) : Prop :=
  i.wellFormed = true ∧ ∃ ys, encodeInput i = .request op (done ++ ys) ∧ xs = ys ++ rest

section
variable {op : Byte} {done xs rest : List Byte} {i : Instr}

/-- The last field of a row has been read. -/
theorem EncodedAs.last {i' : Instr} (h : (Except.ok (i', xs) : Except DecodeError _) = .ok (i, rest))
    (hwf : i'.wellFormed = true) (henc : encodeInput i' = .request op done) : EncodedAs op done xs i rest := by
  cases h
  exact ⟨hwf, [], by rw [List.append_nil, henc], rfl⟩

/-- A row goes on after one of its fields. -/
theorem Reads.field {α : Type} {read : List Byte → Except DecodeError (α × List Byte)} {layout : α → List Byte}
    {f : α × List Byte → Except DecodeError (Instr × List Byte)} (hread : Reads read layout)
    (h : (read xs >>= f) = .ok (i, rest))
    (hnext : ∀ v ys, read xs = .ok (v, ys) → f (v, ys) = .ok (i, rest) → EncodedAs op (done ++ layout v) ys i rest) :
    EncodedAs op done xs i rest := by
  obtain ⟨⟨v, ys⟩, hv, h⟩ := decodeError_bind_eq_ok h
  obtain ⟨hwf, zs, henc, rfl⟩ := hnext v ys hv h
  exact ⟨hwf, layout v ++ zs, by rw [henc, List.append_assoc], by rw [hread xs v _ hv, List.append_assoc]⟩

end

/-- What a row of R80 reads is one well-formed request, and the bytes read are its encoding. -/
theorem encodedAs_of_decodePrefix {op : Byte} {xs : List Byte} {i : Instr} {rest : List Byte}
    (h : decodePrefix op xs = .ok (i, rest)) : EncodedAs op [] xs i rest := by
  have hop : op = BitVec.ofNat 8 op.toNat := by rw [BitVec.ofNat_toNat, BitVec.setWidth_eq]
  unfold decodePrefix at h
  rw [hop]
  generalize op.toNat = n at h
  split at h
  -- opcodes 0x01 to 0x06
  · exact reads_bit.field h fun _ _ _ h => reads_bit.field h fun _ _ _ h => reads_field.field h fun _ _ _ h =>
      .last h rfl rfl
  · exact reads_byte.field h fun _ _ _ h => .last h rfl rfl
  · exact reads_byte.field h fun _ _ _ h => .last h rfl rfl
  · exact .last h rfl rfl
  · exact reads_byte.field h fun _ _ _ h => reads_field.field h fun _ _ _ h => reads_field.field h fun _ _ _ h =>
      .last h rfl rfl
  · exact reads_byte.field h fun _ _ _ h => reads_field.field h fun _ _ _ h => reads_field.field h fun _ _ _ h =>
      reads_byte.field h fun _ _ _ h => .last h rfl rfl
  -- opcodes 0x10 to 0x16
  · exact reads_ref.field h fun _ _ _ h => .last h rfl rfl
  · exact reads_ref.field h fun _ _ _ h => reads_byte.field h fun _ _ _ h => .last h rfl rfl
  · exact reads_ref.field h fun _ _ _ h => .last h rfl rfl
  · exact reads_byte.field h fun _ _ _ h => .last h rfl rfl
  · exact reads_bytes.field h fun _ _ hlen h => .last h (lengthFits_of_readBytes hlen) rfl
  · exact reads_byte.field h fun _ _ _ h => .last h rfl rfl
  · exact reads_bytes.field h fun _ _ hlen h => .last h (lengthFits_of_readBytes hlen) rfl
  -- opcodes 0x20 to 0x28
  · exact reads_word.field h fun _ _ _ h => .last h rfl rfl
  · exact reads_byte.field h fun _ _ _ h => reads_byte.field h fun _ _ _ h => reads_byte.field h fun _ _ _ h =>
      .last h rfl rfl
  · exact reads_word.field h fun _ _ _ h => .last h rfl rfl
  · exact reads_byte.field h fun _ _ _ h => reads_field.field h fun _ _ _ h => .last h rfl rfl
  · exact reads_word.field h fun _ _ _ h => .last h rfl rfl
  · exact reads_field.field h fun _ _ _ h => reads_field.field h fun _ _ _ h => .last h rfl rfl
  · exact reads_word.field h fun _ _ _ h => .last h rfl rfl
  · exact reads_field.field h fun _ _ _ h => reads_field.field h fun _ _ _ h => .last h rfl rfl
  · exact reads_byte.field h fun _ _ _ h => .last h rfl rfl
  -- opcodes 0x30 to 0x3C
  · exact reads_byte.field h fun _ _ _ h => .last h rfl rfl
  · exact .last h rfl rfl
  · exact reads_field.field h fun _ _ _ h => .last h rfl rfl
  · exact reads_byte.field h fun _ _ _ h => .last h rfl rfl
  · exact reads_dir.field h fun _ _ _ h => .last h rfl rfl
  · exact reads_dir.field h fun _ _ _ h => .last h rfl rfl
  · exact reads_dir.field h fun _ _ _ h => .last h rfl rfl
  · exact reads_byte.field h fun _ _ _ h => .last h rfl rfl
  · exact reads_bit.field h fun _ _ _ h => reads_byte.field h fun _ _ _ h => reads_byte.field h fun _ _ _ h =>
      .last h rfl rfl
  · exact .last h rfl rfl
  · exact reads_byte.field h fun _ _ _ h => reads_bytes.field h fun _ _ hlen h =>
      .last h (lengthFits_of_readBytes hlen) rfl
  · exact reads_bytes.field h fun _ _ hlen h => .last h (lengthFits_of_readBytes hlen) rfl
  · exact .last h rfl rfl
  · cases h

/-- A header byte is the encoding of its row, and the row admits its address (R70 to R73). -/
theorem encodeInput_decodeHeader : ∀ h : Byte,
    (decodeHeader h).wellFormed = true ∧ encodeInput (decodeHeader h) = .header h := by
  decide +kernel

theorem decodeRequest_eq_ok {op : Byte} {xs : List Byte} {i : Instr} (h : decodeRequest op xs = .ok i) :
    decodePrefix op xs = .ok (i, []) := by
  unfold decodeRequest at h
  split at h
  · rename_i hprefix
    cases h
    exact hprefix
  · cases h
  · cases h

/-- What is run was a request or a header. -/
theorem decodeInput_eq_run {x : PortInput} {i : Instr} (h : decodeInput x = .run i) :
    (∃ op xs, x = .request op xs ∧ decodePrefix op xs = .ok (i, [])) ∨ ∃ b, x = .header b ∧ i = decodeHeader b := by
  cases x with
  | request op xs =>
    rw [decodeInput] at h
    split at h
    · rename_i hread
      cases h
      exact .inl ⟨op, xs, rfl, decodeRequest_eq_ok hread⟩
    · cases h
    · cases h
  | header b => exact .inr ⟨b, rfl, (Action.run.inj h).symm⟩
  | rst => cases h
  | rstDuring op xs =>
    rw [decodeInput] at h
    split at h <;> cases h

/-- Outside the opcodes of R80 there is no row, whatever bytes follow (R76). -/
theorem decodePrefix_of_reserved {op : Byte} (h : ¬ Machine.IsOpcode op.toNat) (xs : List Byte) :
    decodePrefix op xs = .error .reservedOpcode := by
  unfold decodePrefix
  generalize op.toNat = n at h ⊢
  split
  case h_36 => rfl
  all_goals exact absurd (by decide) h

theorem decodeInput_of_reserved {op : Byte} (h : ¬ Machine.IsOpcode op.toNat) (xs : List Byte) :
    decodeInput (.request op xs) = .reserved op := by
  simp only [decodeInput, decodeRequest, decodePrefix_of_reserved h xs]

/-! ### The statements -/

/-- Settles O1: a request by its row, a header by its fields. -/
theorem decodeOfEncodeIsTheInstruction : Obligations.DecodeOfEncodeIsTheInstruction := by
  intro i hi
  rcases encodeInput_request_or_header i with ⟨op, xs, henc⟩ | ⟨b, henc⟩
  · rw [henc]
    simp only [decodeInput, decodeRequest, decodePrefix_of_encodeInput hi henc]
  · rw [henc, decodeInput, decodeHeader_of_encodeInput hi henc]

/-- Settles O2: a row that leaves nothing over has read exactly the encoding of its request. -/
theorem decodedInputIsItsOneEncoding : Obligations.DecodedInputIsItsOneEncoding := by
  intro x i h
  rcases decodeInput_eq_run h with ⟨op, xs, rfl, hread⟩ | ⟨b, rfl, rfl⟩
  · obtain ⟨hwf, ys, henc, rfl⟩ := encodedAs_of_decodePrefix hread
    exact ⟨hwf, by rw [henc, List.nil_append, List.append_nil]⟩
  · exact encodeInput_decodeHeader b

/-- Settles O3: each word is read by its row. -/
theorem listedWordsDecode : Obligations.ListedWordsDecode :=
  ⟨rfl, rfl, rfl, rfl, rfl, rfl⟩

end Sys2Proof
end

section
/-! SUPPORT and PROOFS for what a step does and what every step keeps (10_state.md, 60_exceptions.md,
70_reset_and_hazards.md). -/

namespace Sys2Proof.Machine

/-! ### The step, by the item taken -/

section
variable {s : State} {x : PortInput} {rest : List PortInput}

theorem step_of_run {i : Instr} (hp : s.port = x :: rest) (hx : decodeInput x = .run i) :
    step s = exec i (s.setPort rest) := by
  simp only [step, hp, hx]

theorem step_of_reserved {op : Byte} (hp : s.port = x :: rest) (hx : decodeInput x = .reserved op) :
    step s = .next ((s.setPort rest).raise (.illegalRequest (.reservedOpcode op))) := by
  simp only [step, hp, hx]

theorem step_of_reset (hp : s.port = x :: rest) (hx : decodeInput x = .reset) :
    step s = .next (s.setPort rest).resetRegisters := by
  simp only [step, hp, hx]

theorem step_of_abandon {i : Instr} (hp : s.port = x :: rest) (hx : decodeInput x = .abandon i) :
    step s = .next ((s.setPort rest).resetDuring (frameOf i)) := by
  simp only [step, hp, hx]

theorem step_of_abandonReserved (hp : s.port = x :: rest) (hx : decodeInput x = .abandonReserved) :
    step s = .next (s.setPort rest).resetRegisters := by
  simp only [step, hp, hx]
  rfl

end

/-- What a reset during a request leaves: the registers reset, and a first part of the frame, if any, on the wire. -/
theorem resetDuring_cases (s : State) (frame : Option Frame) :
    (s.resetDuring frame = s.resetRegisters) ∨
    ∃ m n, frame = some m ∧
      s.resetDuring frame =
        { s.resetRegisters with tick := s.tick + 1, wire := s.wire ++ [⟨m.bytes.take n, none⟩] } := by
  cases frame with
  | none => exact .inl rfl
  | some m => exact .inr ⟨m, _, rfl, rfl⟩

/-- Everything a step to `t` can be. -/
inductive StepCases (s t : State) : Prop where
  /-- An instruction is run. -/
  | run (i : Instr) (rest : List PortInput) (h : exec i (s.setPort rest) = .next t)
  /-- A reserved opcode is refused. -/
  | reserved (op : Byte) (rest : List PortInput)
      (h : t = (s.setPort rest).raise (.illegalRequest (.reservedOpcode op)))
  /-- Reset, with nothing sent. -/
  | reset (rest : List PortInput) (h : t = (s.setPort rest).resetRegisters)
  /-- Reset, with the first `n` bytes of a request's frame sent. -/
  | abandon (i : Instr) (m : Frame) (n : Nat) (rest : List PortInput) (hf : frameOf i = some m)
      (h : t = { (s.setPort rest).resetRegisters with
        tick := s.tick + 1, wire := s.wire ++ [⟨m.bytes.take n, none⟩] })

theorem step_cases {s t : State} (h : step s = .next t) : StepCases s t := by
  cases hp : s.port with
  | nil => simp [step, hp] at h
  | cons x rest =>
    cases hx : decodeInput x with
    | run i => exact .run i rest (step_of_run hp hx ▸ h)
    | reserved op => exact .reserved op rest (Host.Outcome.next.inj (step_of_reserved hp hx ▸ h)).symm
    | reset => exact .reset rest (Host.Outcome.next.inj (step_of_reset hp hx ▸ h)).symm
    | abandonReserved => exact .reset rest (Host.Outcome.next.inj (step_of_abandonReserved hp hx ▸ h)).symm
    | abandon i =>
      have ht := Host.Outcome.next.inj (step_of_abandon hp hx ▸ h)
      rcases resetDuring_cases (s.setPort rest) (frameOf i) with hreset | ⟨m, n, hf, hreset⟩
      · exact .reset rest (hreset ▸ ht).symm
      · exact .abandon i m n rest hf (hreset ▸ ht).symm
    | malformed why => simp [step, hp, hx] at h

/-! ### What a step adds to the responses and to the wire -/

/-- The record of a transaction of an instruction's frame is legal. -/
theorem legal_transaction {i : Instr} {m : Frame} {s : State} (hf : frameOf i = some m) :
    (⟨m.bytes, some (s.exchange m.body.length)⟩ : WireRecord).Legal := by
  refine ⟨?_, fun _ => List.cons_ne_nil _ _, ?_⟩
  · intro h body heq
    cases heq
    exact frameOf_header hf
  · intro status data hx
    rw [data_length_of_exchange (Option.some.inj hx)]
    rfl

/-- The record of a first part of such a frame, sent before a reset, is legal. -/
theorem legal_part {i : Instr} {m : Frame} (hf : frameOf i = some m) (n : Nat) :
    (⟨m.bytes.take n, none⟩ : WireRecord).Legal := by
  refine ⟨?_, fun hne => absurd rfl hne, fun _ _ hx => nomatch hx⟩
  intro h body heq
  cases n with
  | zero => cases heq
  | succ n =>
    cases heq
    exact frameOf_header hf

/-- An instruction delivers one legal response, and puts nothing on the wire or one legal record. -/
theorem exec_adds {i : Instr} {s t : State} (h : exec i s = .next t) :
    (∃ r : Response, t.responses = s.responses ++ [r] ∧ r.Legal) ∧
    (t.wire = s.wire ∨ ∃ w : WireRecord, t.wire = s.wire ++ [w] ∧ w.Legal) := by
  cases exec_cases i s with
  | quiet u r hf hu hr hsame =>
    obtain rfl := Host.Outcome.next.inj (hu ▸ h)
    exact ⟨⟨r, rfl, hr⟩, .inl hsame.1⟩
  | failed m e hf hx hu =>
    obtain rfl := Host.Outcome.next.inj (hu ▸ h)
    exact ⟨⟨_, rfl, legal_error _⟩, .inr ⟨_, rfl, hx ▸ legal_transaction hf⟩⟩
  | received m x d u r hf hx hu hr ht =>
    obtain rfl := Host.Outcome.next.inj (hu ▸ h)
    exact ⟨⟨r, rfl, hr⟩, .inr ⟨_, ht.1, hx ▸ legal_transaction hf⟩⟩

/-- A step delivers no response, or one legal one. -/
theorem step_responses {s t : State} (h : step s = .next t) :
    t.responses = s.responses ∨ ∃ r : Response, t.responses = s.responses ++ [r] ∧ r.Legal := by
  cases step_cases h with
  | run i rest h => exact .inr (exec_adds h).1
  | reserved op rest h =>
    subst h
    exact .inr ⟨_, rfl, legal_error _⟩
  | reset rest h => exact .inl (h ▸ rfl)
  | abandon i m n rest hf h => exact .inl (h ▸ rfl)

/-- A step puts nothing on the wire, or one legal record. -/
theorem step_wire {s t : State} (h : step s = .next t) :
    t.wire = s.wire ∨ ∃ w : WireRecord, t.wire = s.wire ++ [w] ∧ w.Legal := by
  cases step_cases h with
  | run i rest h => exact (exec_adds h).2
  | reserved op rest h => exact .inl (h ▸ rfl)
  | reset rest h => exact .inl (h ▸ rfl)
  | abandon i m n rest hf h => exact .inr ⟨_, h ▸ rfl, legal_part hf n⟩

/-! ### The retained status -/

theorem not_completed_failed (sent : List Byte) (e : Nat) :
    ¬ (⟨sent, some (.failed e)⟩ : WireRecord).Completed := fun ⟨_, _, h⟩ => nomatch h

/-- A completed transaction just retained is the last one. -/
theorem statusIsLast_of_received {s t : State} {sent data : List Byte} {x : Byte}
    (hw : t.wire = s.wire ++ [⟨sent, some (.received x data)⟩]) (hlast : t.statusLast = x) : t.StatusIsLast := by
  subst hlast
  exact fun _ => ⟨s.wire, _, [], data, hw, rfl, fun _ hv => nomatch hv⟩

/-- Records that completed nothing leave the last completed transaction the last. -/
theorem State.StatusIsLast.append {s t : State} {ws : List WireRecord} (hs : s.StatusIsLast)
    (hvalid : t.statusValid = s.statusValid) (hlast : t.statusLast = s.statusLast) (hw : t.wire = s.wire ++ ws)
    (hws : ∀ w ∈ ws, ¬ w.Completed) : t.StatusIsLast := by
  intro ht
  obtain ⟨before, w, after, data, hwire, hw', hafter⟩ := hs (hvalid ▸ ht)
  refine ⟨before, w, after ++ ws, data, ?_, hlast ▸ hw', ?_⟩
  · rw [hw, hwire, List.append_assoc, List.cons_append]
  · exact fun v hv => (List.mem_append.mp hv).elim (hafter v) (hws v)

/-- What an instruction does keeps the retained status that of the last completed transaction. -/
theorem exec_statusIsLast {i : Instr} {s t : State} (hs : s.StatusIsLast) (h : exec i s = .next t) :
    t.StatusIsLast := by
  cases exec_cases i s with
  | quiet u r hf hu hr hsame =>
    obtain rfl := Host.Outcome.next.inj (hu ▸ h)
    obtain ⟨hw, -, -, hlast, hvalid, -⟩ := hsame
    exact hs.append (ws := []) hvalid hlast (by rw [List.append_nil]; exact hw) (fun _ hv => nomatch hv)
  | failed m e hf hx hu =>
    obtain rfl := Host.Outcome.next.inj (hu ▸ h)
    refine hs.append rfl rfl rfl fun w hw => ?_
    rw [List.mem_singleton.mp hw]
    exact not_completed_failed _ e
  | received m x d u r hf hx hu hr hsame =>
    obtain rfl := Host.Outcome.next.inj (hu ▸ h)
    obtain ⟨hw, -, -, hlast, -, -⟩ := hsame
    exact statusIsLast_of_received hw hlast

/-! ### The monitor's registers -/

/-- A read of TXBYTES on the wire showed the fault (R22). -/
def SawUnderflow (wire : List WireRecord) : Prop :=
  ∃ w ∈ wire, ∃ status v, w.sent = [0xFA#8, 0x00#8] ∧ w.result = some (.received status [v]) ∧ 128 ≤ v.toNat

/-- A fault-free read of the byte-count register of `d` on the wire showed the count `c` (R21). -/
def SampleRead (wire : List WireRecord) (d : Dir) (c : BitVec 7) : Prop :=
  ∃ w ∈ wire, ∃ status v, w.sent = [fifoBytesHeader d, 0x00#8] ∧ w.result = some (.received status [v]) ∧
    v.toNat = c.toNat

theorem samplesWereRead_iff (s : State) :
    s.SamplesWereRead ↔ ∀ d, s.stbValid d = true → SampleRead s.wire d (s.stbPrev d) :=
  ⟨fun h d => match d with | .rx => h.1 | .tx => h.2, fun h => ⟨h .rx, h .tx⟩⟩

theorem SawUnderflow.append {wire : List WireRecord} (h : SawUnderflow wire) (ws : List WireRecord) :
    SawUnderflow (wire ++ ws) := by
  obtain ⟨w, hw, h⟩ := h
  exact ⟨w, List.mem_append_left ws hw, h⟩

theorem SampleRead.append {wire : List WireRecord} {d : Dir} {c : BitVec 7} (h : SampleRead wire d c)
    (ws : List WireRecord) : SampleRead (wire ++ ws) d c := by
  obtain ⟨w, hw, h⟩ := h
  exact ⟨w, List.mem_append_left ws hw, h⟩

/-- The stability monitor's registers and `UF_SEEN` (R21, R22). -/
def State.monitor (s : State) : Bool × (Dir → Bool) × (Dir → BitVec 7) := (s.ufSeen, s.stbValid, s.stbPrev)

/-- What `t` holds in the monitor's registers was held in `s`, or read from the chip. -/
structure MonitorKept (s t : State) : Prop where
  underflow : t.ufSeen = true → s.ufSeen = true ∨ SawUnderflow t.wire
  sample (d : Dir) : t.stbValid d = true →
    (s.stbValid d = true ∧ t.stbPrev d = s.stbPrev d) ∨ SampleRead t.wire d (t.stbPrev d)

namespace MonitorKept
variable {s t u : State}

theorem of_eq (hm : t.monitor = s.monitor) : MonitorKept s t := by
  obtain ⟨hu, hv, hp⟩ : t.ufSeen = s.ufSeen ∧ t.stbValid = s.stbValid ∧ t.stbPrev = s.stbPrev := by
    simpa [State.monitor] using hm
  exact ⟨fun h => .inl (hu ▸ h), fun d h => .inl ⟨hv ▸ h, hp ▸ rfl⟩⟩

/-- A change of none of these registers and not of the wire. -/
theorem congr (h : MonitorKept s t) (hm : u.monitor = t.monitor) (hw : u.wire = t.wire) : MonitorKept s u := by
  obtain ⟨hu, hv, hp⟩ : u.ufSeen = t.ufSeen ∧ u.stbValid = t.stbValid ∧ u.stbPrev = t.stbPrev := by
    simpa [State.monitor] using hm
  constructor
  · rw [hu, hw]
    exact h.underflow
  · rw [hv, hp, hw]
    exact h.sample

theorem withOk (h : MonitorKept s t) (d : Result) : MonitorKept s (t.withOk d) := h.congr rfl rfl

theorem withError (h : MonitorKept s t) (err : BitVec 4) (info : BitVec 16) : MonitorKept s (t.withError err info) :=
  h.congr rfl rfl

theorem clearUfSeen (h : MonitorKept s t) : MonitorKept s (t.setUfSeen false) :=
  ⟨fun hu => (nomatch hu), h.sample⟩

theorem clearStb (h : MonitorKept s t) (d : Dir) : MonitorKept s (t.clearStb d) := by
  refine ⟨by simpa using h.underflow, fun d' hv => ?_⟩
  cases d <;> cases d'
  · cases hv
  · exact h.sample .tx hv
  · exact h.sample .rx hv
  · cases hv

theorem setStb {d : Dir} {c : BitVec 7} (h : MonitorKept s t) (hread : SampleRead t.wire d c) :
    MonitorKept s (t.setStb d c) := by
  refine ⟨by simpa using h.underflow, fun d' hv => ?_⟩
  cases d <;> cases d'
  · exact .inr hread
  · exact h.sample .tx hv
  · exact h.sample .rx hv
  · exact .inr hread

theorem noteUnderflow {d : Dir} {f : Bool} (h : MonitorKept s t) (hsaw : d = .tx → f = true → SawUnderflow t.wire) :
    MonitorKept s (t.noteUnderflow d f) := by
  cases d with
  | rx => exact h
  | tx =>
    cases f with
    | false => exact h
    | true => exact ⟨fun _ => .inr (hsaw rfl rfl), h.sample⟩

end MonitorKept

theorem busRequest_monitor (s : State) (a : Except Err Frame) {k : List Byte → State → State}
    (hk : ∀ d u, (k d u).monitor = u.monitor) : (s.busRequest a k).monitor = s.monitor := by
  rcases busRequest_cases s a k with ⟨e, -, h⟩ | ⟨m, e, -, -, h⟩ | ⟨m, x, d, -, -, h⟩
  · rw [h]; rfl
  · rw [h]; rfl
  · rw [h, hk]; rfl

theorem decodeMarc_monitor (s : State) (v : Byte) (f : MarcState → Result) :
    (s.decodeMarc v fun st u => u.respond (f st)).monitor = s.monitor := by
  rcases decodeMarc_cases s v fun st u => u.respond (f st) with ⟨-, h⟩ | ⟨st, -, h⟩
  · rw [h]; rfl
  · rw [h]; rfl

/-- The byte-count register's read, as it stands on the wire, is a sample of the count it shows. -/
theorem sampleRead_afterExchange (s : State) (d : Dir) (status : Byte) {v : Byte} (hv : v.toNat < 128) :
    SampleRead (s.afterExchange [fifoBytesHeader d, 0x00#8] status [v]).wire d (BitVec.ofNat 7 v.toNat) := by
  refine ⟨_, List.mem_append_right _ (List.mem_singleton_self _), status, v, rfl, rfl, ?_⟩
  rw [BitVec.toNat_ofNat, Nat.mod_eq_of_lt hv]

theorem sawUnderflow_afterExchange (s : State) {d : Dir} (hd : d = .tx) (status : Byte) {v : Byte}
    (hv : 128 ≤ v.toNat) : SawUnderflow (s.afterExchange [fifoBytesHeader d, 0x00#8] status [v]).wire := by
  subst hd
  exact ⟨_, List.mem_append_right _ (List.mem_singleton_self _), status, v, rfl, rfl, hv⟩

theorem fifoPoll_monitor (d : Dir) (s : State) : ∃ t, exec (.fifoPoll d) s = .next t ∧ MonitorKept s t := by
  cases hx : s.exchange 1 with
  | failed e => exact ⟨_, congrArg Host.Outcome.next (sampleFifo_failed hx d), .of_eq rfl⟩
  | received status data =>
    obtain ⟨v, rfl⟩ := data_of_exchange_one hx
    have hsame : MonitorKept s (s.afterExchange [fifoBytesHeader d, 0x00#8] status [v]) := .of_eq rfl
    refine ⟨_, exec_fifoPoll_received hx d, (hsame.noteUnderflow fun hd hf => ?_).withOk _⟩
    exact sawUnderflow_afterExchange s hd status (of_decide_eq_true hf)

theorem stableStep_monitor (d : Dir) (s : State) : ∃ t, exec (.stableStep d) s = .next t ∧ MonitorKept s t := by
  cases hx : s.exchange 1 with
  | failed e => exact ⟨_, congrArg Host.Outcome.next (sampleFifo_failed hx d), .of_eq rfl⟩
  | received status data =>
    obtain ⟨v, rfl⟩ := data_of_exchange_one hx
    have hsame : MonitorKept s (s.afterExchange [fifoBytesHeader d, 0x00#8] status [v]) := .of_eq rfl
    refine ⟨_, exec_stableStep_received hx d, ?_⟩
    rw [judgeSample_eq]
    split_ifs with hfault hstable
    · exact ((hsame.noteUnderflow fun hd _ => sawUnderflow_afterExchange s hd status hfault).clearStb d).withError _ _
    · exact (hsame.clearStb d).withOk _
    · exact (hsame.setStb (sampleRead_afterExchange s d status (Nat.not_le.mp hfault))).withOk _

/-- No instruction puts into the monitor's registers what was not read from the chip. -/
theorem exec_monitor (i : Instr) (s : State) : ∃ t, exec i s = .next t ∧ MonitorKept s t := by
  cases i
  case fifoPoll d => exact fifoPoll_monitor d s
  case stableStep d => exact stableStep_monitor d s
  case stableStart d => exact ⟨_, rfl, (MonitorKept.of_eq rfl).clearStb d |>.withOk _⟩
  case ufClear => exact ⟨_, rfl, (MonitorKept.of_eq rfl).clearUfSeen.withOk _⟩
  case txOutcome =>
    refine ⟨_, rfl, ?_⟩
    split
    · exact (MonitorKept.of_eq rfl).clearUfSeen.withError _ _
    · exact (MonitorKept.of_eq rfl).clearUfSeen.withOk _
  case regRead | regWrite | strobe | fifoRead | fifoWrite | patableRead | patableWrite =>
    exact ⟨_, rfl, .of_eq (busRequest_monitor s _ fun _ _ => rfl)⟩
  case msRead | msMatch =>
    exact ⟨_, rfl, .of_eq (busRequest_monitor s _ fun _ u => decodeMarc_monitor u _ _)⟩
  case msDec v => exact ⟨_, rfl, .of_eq (decodeMarc_monitor s v _)⟩
  case freqEnc | chbwEnc =>
    refine ⟨_, rfl, .of_eq ?_⟩
    dsimp only
    split <;> rfl
  case fieldGet | drateEnc | devEnc | txFrame =>
    refine ⟨_, rfl, .of_eq ?_⟩
    split <;> rfl
  case fieldSet | rxOutcome | rxFrame =>
    refine ⟨_, rfl, .of_eq ?_⟩
    split
    · rfl
    · split <;> rfl
  all_goals exact ⟨_, rfl, .of_eq rfl⟩

/-- No step does either: a reset clears the valid bits and `UF_SEEN` (R230). -/
theorem step_monitor {s t : State} (h : step s = .next t) : MonitorKept s t := by
  cases step_cases h with
  | run i rest h =>
    obtain ⟨u, hu, hkept⟩ := exec_monitor i (s.setPort rest)
    obtain rfl := Host.Outcome.next.inj (hu ▸ h)
    exact ⟨hkept.underflow, hkept.sample⟩
  | reserved op rest h => exact .of_eq (h ▸ rfl)
  | reset rest h =>
    subst h
    exact ⟨fun hu => (nomatch hu), fun d hv => by cases d <;> cases hv⟩
  | abandon i m n rest hf h =>
    subst h
    exact ⟨fun hu => (nomatch hu), fun d hv => by cases d <;> cases hv⟩

/-- The wire record only grows. -/
theorem step_wire_prefix {s t : State} (h : step s = .next t) : ∃ ws, t.wire = s.wire ++ ws := by
  rcases step_wire h with heq | ⟨w, heq, -⟩
  · exact ⟨[], by rw [heq, List.append_nil]⟩
  · exact ⟨[w], heq⟩

/-! ### The statements -/

/-- Settles O54: a step delivers at most one response, a legal one. -/
theorem stepKeepsResponsesLegal : Obligations.StepKeepsResponsesLegal := by
  intro s t hs hst r hr
  rcases step_responses hst with heq | ⟨r', heq, hlegal⟩
  · exact hs r (heq ▸ hr)
  · rw [heq, List.mem_append, List.mem_singleton] at hr
    rcases hr with hr | rfl
    · exact hs r hr
    · exact hlegal

/-- Settles O55: a step adds at most one record, a legal one. -/
theorem stepKeepsTheWireLegal : Obligations.StepKeepsTheWireLegal := by
  intro s t hs hst w hw
  rcases step_wire hst with heq | ⟨w', heq, hlegal⟩
  · exact hs w (heq ▸ hw)
  · rw [heq, List.mem_append, List.mem_singleton] at hw
    rcases hw with hw | rfl
    · exact hs w hw
    · exact hlegal

/-- Settles O56: only a completed transaction is retained, and a reset makes the retained byte invalid. -/
theorem stepKeepsStatusIsLast : Obligations.StepKeepsStatusIsLast := by
  intro s t hs hst
  cases step_cases hst with
  | run i rest h => exact exec_statusIsLast (s := s.setPort rest) hs h
  | reserved op rest h => exact h ▸ hs
  | reset rest h => exact fun hvalid => by subst h; cases hvalid
  | abandon i m n rest hf h => exact fun hvalid => by subst h; cases hvalid

/-- Settles O57: the fault was seen by this step or before it. -/
theorem stepKeepsUnderflowWasSeen : Obligations.StepKeepsUnderflowWasSeen := by
  intro s t hs hst ht
  obtain ⟨ws, hw⟩ := step_wire_prefix hst
  rcases (step_monitor hst).underflow ht with hseen | hsaw
  · rw [hw]
    exact SawUnderflow.append (hs hseen) ws
  · exact hsaw

/-- Settles O58: the sample was read by this step or before it. -/
theorem stepKeepsSamplesWereRead : Obligations.StepKeepsSamplesWereRead := by
  intro s t hs hst
  rw [samplesWereRead_iff] at hs ⊢
  intro d ht
  obtain ⟨ws, hw⟩ := step_wire_prefix hst
  rcases (step_monitor hst).sample d ht with ⟨hvalid, hprev⟩ | hread
  · rw [hw, hprev]
    exact (hs d hvalid).append ws
  · exact hread

end Sys2Proof.Machine
end

section
/-! PROOFS for the step and the reset (10_state.md, 41_access_protocol.md section 1, 60_exceptions.md,
70_reset_and_hazards.md section 1). -/

namespace Sys2Proof.Machine

/-- Settles O4: the item is taken, then the instruction runs. -/
theorem stepRunsTheDecodedInstruction : Obligations.StepRunsTheDecodedInstruction :=
  fun _ _ _ _ hp hx => step_of_run hp hx

/-- Settles O5: no row of R80 reads the opcode, so the step raises the error. -/
theorem reservedOpcodeIsRefused : Obligations.ReservedOpcodeIsRefused := by
  intro s op xs rest hp hop
  rw [step_of_reserved hp (decodeInput_of_reserved hop xs), raise_eq_withError rfl, BitVec.ofNat_toNat]
  rfl

/-- Settles O7: in each of the three things an instruction can do, one response is delivered last. -/
theorem everyInstructionGetsOneResponse : Obligations.EveryInstructionGetsOneResponse := by
  intro i s
  cases exec_cases i s with
  | quiet t r hf h hr hsame =>
    obtain ⟨-, -, -, -, -, hport⟩ := hsame
    exact ⟨_, r, h, rfl, hport⟩
  | failed m e hf hx h => exact ⟨_, _, h, rfl, rfl⟩
  | received m x d t r hf hx h hr ht =>
    obtain ⟨-, -, -, -, -, hport⟩ := ht
    exact ⟨_, r, h, rfl, hport⟩

/-- Settles O8: of the three things an instruction can do, `frameOf` tells the first from the other two. -/
theorem oneTransactionPerFrame : Obligations.OneTransactionPerFrame := by
  intro i s
  cases exec_cases i s with
  | quiet t r hf h hr hsame =>
    obtain ⟨hwire, hanswers, htick, hlast, hvalid, -⟩ := hsame
    exact ⟨_, h, fun _ => ⟨hwire, hanswers, htick, hlast, hvalid⟩, fun m hm => nomatch hf.symm.trans hm⟩
  | failed m e hf hx h =>
    refine ⟨_, h, fun hnone => absurd (hf.symm.trans hnone) (Option.some_ne_none m), fun m' hm => ?_⟩
    obtain rfl := Option.some.inj (hf.symm.trans hm)
    refine ⟨by rw [hx]; rfl, rfl, fun e' he => ?_⟩
    obtain rfl := XferResult.failed.inj (hx.symm.trans he)
    exact raise_record s m e
  | received m x d t r hf hx h hr ht =>
    refine ⟨_, h, fun hnone => absurd (hf.symm.trans hnone) (Option.some_ne_none m), fun m' hm => ?_⟩
    obtain rfl := Option.some.inj (hf.symm.trans hm)
    obtain ⟨hwire, hanswers, -⟩ := ht
    exact ⟨by rw [hx]; exact hwire, hanswers, fun e he => nomatch hx.symm.trans he⟩

/-- A step on anything the port can carry takes the item and answers a next state. -/
theorem step_of_presentable {s : State} {x : PortInput} {rest : List PortInput} (hp : s.port = x :: rest)
    (hx : Presentable x) : ∃ t, step s = .next t ∧ t.port = rest := by
  cases hd : decodeInput x with
  | run i =>
    obtain ⟨t, r, h, -, hport⟩ := everyInstructionGetsOneResponse i (s.setPort rest)
    exact ⟨t, (step_of_run hp hd).trans h, hport⟩
  | reserved op => exact ⟨_, step_of_reserved hp hd, rfl⟩
  | reset => exact ⟨_, step_of_reset hp hd, rfl⟩
  | abandonReserved => exact ⟨_, step_of_abandonReserved hp hd, rfl⟩
  | abandon i =>
    refine ⟨_, step_of_abandon hp hd, ?_⟩
    rcases resetDuring_cases (s.setPort rest) (frameOf i) with h | ⟨m, n, -, h⟩
    · rw [h]; rfl
    · rw [h]; rfl
  | malformed why => exact absurd hd (hx why)

/-- Settles O6: the step is total on the port's items, and `step_responses` and `step_wire` bound what it adds. -/
theorem presentableInputIsExecuted : Obligations.PresentableInputIsExecuted := by
  intro s x rest hp hx
  obtain ⟨t, hst, hport⟩ := step_of_presentable hp hx
  obtain ⟨rs, hrs, hlen⟩ : ∃ rs, t.responses = s.responses ++ rs ∧ rs.length ≤ 1 := by
    rcases step_responses hst with heq | ⟨r, heq, -⟩
    · exact ⟨[], by rw [heq, List.append_nil], Nat.zero_le 1⟩
    · exact ⟨[r], heq, Nat.le_refl 1⟩
  obtain ⟨ws, hws, hlen'⟩ : ∃ ws, t.wire = s.wire ++ ws ∧ ws.length ≤ 1 := by
    rcases step_wire hst with heq | ⟨w, heq, -⟩
    · exact ⟨[], by rw [heq, List.append_nil], Nat.zero_le 1⟩
    · exact ⟨[w], heq, Nat.le_refl 1⟩
  exact ⟨t, rs, ws, hst, hport, hrs, hlen, hws, hlen'⟩

/-- Settles O9: the reset state is written so. -/
theorem resetValues : Obligations.ResetValues := ⟨rfl, rfl, rfl, rfl, rfl, rfl, rfl⟩

/-- Settles O10: the registers that hold no value after reset may hold anything. -/
theorem resetInputResetsTheRegisters : Obligations.ResetInputResetsTheRegisters :=
  fun _ _ hp => ⟨_, _, _, step_of_reset hp rfl⟩

/-- A presentable abandoned item is a request of R80, or one with a reserved opcode. -/
theorem decodeInput_rstDuring {op : Byte} {xs : List Byte} (hx : Presentable (.rstDuring op xs)) :
    (∃ i, decodeRequest op xs = .ok i ∧ decodeInput (.rstDuring op xs) = .abandon i) ∨
    decodeInput (.rstDuring op xs) = .abandonReserved := by
  cases hreq : decodeRequest op xs with
  | ok i => exact .inl ⟨i, rfl, by simp only [decodeInput, hreq]⟩
  | error why =>
    cases why
    case reservedOpcode => exact .inr (by simp only [decodeInput, hreq])
    all_goals
      simp only [Presentable, decodeInput, hreq] at hx
      exact absurd rfl (hx _)

/-- Settles O11: the request had a frame, of which a first part went out, or nothing is sent. -/
theorem resetAbandonsTheRequest : Obligations.ResetAbandonsTheRequest := by
  intro s op xs rest hp hx
  rcases decodeInput_rstDuring hx with ⟨i, hreq, hd⟩ | hd
  · have hst := step_of_abandon hp hd
    rcases resetDuring_cases (s.setPort rest) (frameOf i) with h | ⟨m, n, hf, h⟩
    · rw [h] at hst
      exact ⟨_, hst, rfl, rfl, rfl, rfl, rfl, rfl, rfl, .inl rfl⟩
    · rw [h] at hst
      exact ⟨_, hst, rfl, rfl, rfl, rfl, rfl, rfl, rfl,
        .inr ⟨i, m, m.bytes.take n, hreq, hf, List.take_prefix n m.bytes, rfl⟩⟩
  · exact ⟨_, step_of_abandonReserved hp hd, rfl, rfl, rfl, rfl, rfl, rfl, rfl, .inl rfl⟩

/-- Settles O53: nothing has been answered or sent, and no register is valid. -/
theorem resetMeetsTheInvariant : Obligations.ResetMeetsTheInvariant :=
  ⟨fun _ hr => (nomatch hr), fun _ hw => (nomatch hw), fun hvalid => (nomatch hvalid), fun hseen => (nomatch hseen),
    fun hvalid => (nomatch hvalid), fun hvalid => (nomatch hvalid)⟩

end Sys2Proof.Machine
end

section
/-! SUPPORT and PROOFS for the rest of 41_access_protocol.md and the transport port: the header rows, the fields
written, what a transfer yields, and references that are not mapped. -/

namespace Sys2Proof.Machine

/-! ### Headers -/

/-- The header decoder on the header of given fields (R101). -/
theorem exec_hdrDec_headerByte (rw b : Bool) (a : BitVec 6) (s : State) :
    exec (.hdrDec (headerByte rw b a)) s =
      .next (s.withOk (.headerFields rw b a (headerClass (headerByte rw b a)))) := by
  show Host.Outcome.next (s.respond (decodedHeader _)) = _
  rw [decodedHeader, headerRw_headerByte, headerB_headerByte, headerAddr_headerByte, respond_eq_withOk]

/-- Settles O14: `headerByte` and the fields of a header undo each other. -/
theorem hdrDecUndoesHdrEnc : Obligations.HdrDecUndoesHdrEnc :=
  fun rw b a _ => ⟨_, _, rfl, exec_hdrDec_headerByte rw b a⟩

/-- A header row answers as the header decoder does on its header (assumption log 4). -/
theorem decodeHeaderRow_of_class {rw b : Bool} {a : BitVec 6} {cls : HdrClass}
    (hcls : headerClass (headerByte rw b a) = cls) (s : State) :
    decodeHeaderRow (headerByte rw b a) s = .next (s.withOk (.headerFields rw b a cls)) :=
  hcls ▸ exec_hdrDec_headerByte rw b a s

theorem headerClass_config : ∀ (rw b : Bool) (a : BitVec 6), a.toNat ≤ 0x2E →
    headerClass (headerByte rw b a) = .config := by
  decide +kernel

theorem headerClass_burst : ∀ (rw : Bool) (a : BitVec 6), 0x30 ≤ a.toNat → a.toNat ≤ 0x3D →
    headerClass (headerByte rw true a) = if rw then .status else .reserved := by
  decide +kernel

theorem headerClass_strobe : ∀ (rw : Bool) (a : BitVec 6), 0x30 ≤ a.toNat → a.toNat ≤ 0x3D → a.toNat ≠ 0x37 →
    headerClass (headerByte rw false a) = .strobe := by
  decide +kernel

theorem headerClass_space : ∀ rw b : Bool, headerClass (headerByte rw b 0x3E) = .patable ∧
    headerClass (headerByte rw b 0x3F) = (if rw then .rxfifo else .txfifo) := by
  decide +kernel

theorem headerClass_reserved : ∀ rw b : Bool, headerClass (headerByte rw b 0x2F) = .reserved ∧
    headerClass (headerByte rw false 0x37) = .reserved := by
  decide +kernel

/-- Settles O15: each row is the header decoder on its header, whose class its address decides. -/
theorem wireHeaderRowsAnswerTheirClass : Obligations.WireHeaderRowsAnswerTheirClass := by
  intro a r b s
  refine ⟨fun ha => ?_, fun hlo hhi => ?_, fun hlo hhi hne => ?_, ?_, ?_, ?_, ?_, ?_⟩
  · exact ⟨decodeHeaderRow_of_class (headerClass_config true false a ha) s,
      decodeHeaderRow_of_class (headerClass_config false false a ha) s,
      decodeHeaderRow_of_class (headerClass_config true true a ha) s,
      decodeHeaderRow_of_class (headerClass_config false true a ha) s⟩
  · exact ⟨decodeHeaderRow_of_class (headerClass_burst true a hlo hhi) s,
      decodeHeaderRow_of_class (headerClass_burst false a hlo hhi) s⟩
  · exact decodeHeaderRow_of_class (headerClass_strobe r a hlo hhi hne) s
  · exact decodeHeaderRow_of_class (headerClass_space r b).1 s
  · exact decodeHeaderRow_of_class (headerClass_space true b).2 s
  · exact decodeHeaderRow_of_class (headerClass_space false b).2 s
  · exact decodeHeaderRow_of_class (headerClass_reserved r b).1 s
  · exact decodeHeaderRow_of_class (headerClass_reserved r b).2 s

/-! ### Fields -/

/-- The mask has the bits of the field (R114). -/
theorem fieldMask_getLsbD (off : BitVec 3) (w : BitVec 4) {k : Nat} (hk : k < 8) :
    (fieldMask off w).getLsbD k = decide (off.toNat ≤ k ∧ k < off.toNat + w.toNat) := by
  rw [fieldMask, BitVec.getLsbD_ofNat, Nat.testBit_shiftLeft, Nat.testBit_two_pow_sub_one]
  simp only [ge_iff_le, hk, decide_true, Bool.true_and, ← Bool.decide_and]
  exact decide_eq_decide.mpr (by omega)

/-- The bits of the field are those of `x`, the others those of `v` (R114). -/
theorem fieldInsert_getLsbD (v : Byte) (off : BitVec 3) (w : BitVec 4) (x : Byte) {k : Nat} (hk : k < 8) :
    (fieldInsert v off w x).getLsbD k =
      if off.toNat ≤ k ∧ k < off.toNat + w.toNat then x.getLsbD (k - off.toNat) else v.getLsbD k := by
  rw [fieldInsert, BitVec.getLsbD_or, BitVec.getLsbD_and, BitVec.getLsbD_and, BitVec.getLsbD_not,
    BitVec.getLsbD_shiftLeft, fieldMask_getLsbD off w hk]
  by_cases hin : off.toNat ≤ k ∧ k < off.toNat + w.toNat
  · simp [hin, hk]
  · simp [hin, hk]

/-- The bits of an extracted field are those of `v` from `off` on (R113). -/
theorem fieldExtract_getLsbD (v : Byte) (off : BitVec 3) (w : BitVec 4) {k : Nat} (hk : k < 8) :
    (fieldExtract v off w).getLsbD k = (v.getLsbD (off.toNat + k) && decide (k < w.toNat)) := by
  rw [fieldExtract, BitVec.getLsbD_and, BitVec.getLsbD_ushiftRight, BitVec.getLsbD_ofNat,
    Nat.testBit_two_pow_sub_one]
  simp [hk]

/-- What was inserted into a field is extracted from it. -/
theorem fieldExtract_fieldInsert (v : Byte) {off : BitVec 3} {w : BitVec 4} {x : Byte}
    (hfit : off.toNat + w.toNat ≤ 8) (hx : x.toNat < 2 ^ w.toNat) :
    fieldExtract (fieldInsert v off w x) off w = x := by
  apply BitVec.eq_of_getLsbD_eq
  intro k hk
  rw [fieldExtract_getLsbD _ off w hk]
  by_cases hkw : k < w.toNat
  · rw [fieldInsert_getLsbD v off w x (by omega), if_pos (by omega), Nat.add_sub_cancel_left, decide_eq_true hkw,
      Bool.and_true]
  · have hbit : x.getLsbD k = false :=
      Nat.testBit_lt_two_pow (hx.trans_le (Nat.pow_le_pow_right (by decide) (Nat.not_lt.mp hkw)))
    rw [decide_eq_false hkw, Bool.and_false, hbit]

/-- Detail 0x03xx (R212). -/
theorem raise_fieldOverflow (s : State) (x : Byte) :
    s.raise (.illegalRequest (.fieldOverflow x)) = s.withError 8 (BitVec.ofNat 16 (0x0300 + x.toNat)) := by
  have hinfo : (Illegal.fieldOverflow x).info = BitVec.ofNat 16 (0x0300 + x.toNat) := by
    revert x
    decide +kernel
  rw [← hinfo]
  exact raise_eq_withError rfl

section
variable {off : BitVec 3} {w : BitVec 4} {x : Byte}

theorem exec_fieldSet_of_fits (hw : 1 ≤ w.toNat) (hfit : off.toNat + w.toNat ≤ 8) (hx : x.toNat < 2 ^ w.toNat)
    (v : Byte) (s : State) :
    exec (.fieldSet v off w x) s = .next (s.withOk (.field (fieldInsert v off w x))) := by
  have hok : insertError w x = none := if_neg (Nat.not_le.mpr hx)
  simp only [exec, execFieldSet, fieldError_of_fits hw hfit, hok]
  rw [respond_eq_withOk]

theorem exec_fieldSet_of_badField (hbad : w.toNat = 0 ∨ 8 < off.toNat + w.toNat) (v : Byte) (s : State) :
    exec (.fieldSet v off w x) s = .next (s.withError 8 (BitVec.ofNat 16 (0x0200 + 16 * off.toNat + w.toNat))) := by
  simp only [exec, execFieldSet, fieldError_of_not_fits hbad]
  rw [raise_badField]

theorem exec_fieldSet_of_overflow (hw : 1 ≤ w.toNat) (hfit : off.toNat + w.toNat ≤ 8) (hx : 2 ^ w.toNat ≤ x.toNat)
    (v : Byte) (s : State) :
    exec (.fieldSet v off w x) s = .next (s.withError 8 (BitVec.ofNat 16 (0x0300 + x.toNat))) := by
  have hlarge : insertError w x = some (.illegalRequest (.fieldOverflow x)) := if_pos hx
  simp only [exec, execFieldSet, fieldError_of_fits hw hfit, hlarge]
  rw [raise_fieldOverflow]

end

/-- Settles O19: the three clauses are the three paths of `FIELD_SET`. -/
theorem fieldSetInsertsTheField : Obligations.FieldSetInsertsTheField := by
  intro v off w x s
  refine ⟨fun hw hfit hx => ?_, fun hbad => exec_fieldSet_of_badField hbad v s, fun hw hfit hx => ?_⟩
  · exact ⟨_, exec_fieldSet_of_fits hw hfit hx v s, fun k hk => fieldInsert_getLsbD v off w x hk⟩
  · exact exec_fieldSet_of_overflow hw hfit hx v s

/-- Settles O20: an answer means that the field is legal and `x` fits it. -/
theorem fieldGetReadsBackFieldSet : Obligations.FieldGetReadsBackFieldSet := by
  intro v off w x v2 s h t
  have hfield : 1 ≤ w.toNat ∧ off.toNat + w.toNat ≤ 8 := by
    by_contra hbad
    rw [exec_fieldSet_of_badField (by omega)] at h
    exact next_withError_ne_withOk h
  obtain ⟨hw, hfit⟩ := hfield
  have hx : x.toNat < 2 ^ w.toNat := by
    by_contra hlarge
    rw [exec_fieldSet_of_overflow hw hfit (Nat.not_lt.mp hlarge)] at h
    exact next_withError_ne_withOk h
  rw [exec_fieldSet_of_fits hw hfit hx, next_withOk_inj] at h
  obtain rfl := Result.field.inj h
  simp only [exec, execFieldGet, fieldError_of_fits hw hfit]
  rw [fieldExtract_fieldInsert v hfit hx, respond_eq_withOk]

/-! ### The transport port -/

theorem nextAnswer_of_listed {s : State} {a : Answer} {more : List Answer} (h : s.answers = a :: more) :
    s.nextAnswer = a := by
  simp only [State.nextAnswer, h]

/-- Settles O21: the length of what is received is the frame's, and a listed answer of that length is not filled up. -/
theorem exchangeFollowsTheTransport : Obligations.ExchangeFollowsTheTransport := by
  intro s more
  refine ⟨fun n status data hx => data_length_of_exchange hx, fun status data hlist => ?_, fun e n hlist => ?_⟩
  · simp only [State.exchange, nextAnswer_of_listed hlist, List.headD_cons, List.tail_cons, receivedBytes_listed]
  · simp only [State.exchange, nextAnswer_of_listed hlist]

/-! ### References that are not mapped -/

/-- Detail 0x0800 | (tag << 6) | addr (R212). -/
theorem raise_notInRegMap (s : State) (r : Ref) :
    s.raise (.illegalRequest (.notInRegMap r)) =
      s.withError 8 (BitVec.ofNat 16 (0x0800 + 64 * r.tag.toNat + r.addr.toNat)) := by
  have hinfo : ∀ (tag : BitVec 3) (addr : BitVec 6),
      (Illegal.notInRegMap ⟨tag, addr⟩).info = BitVec.ofNat 16 (0x0800 + 64 * tag.toNat + addr.toNat) := by
    decide +kernel
  rw [← hinfo]
  exact raise_eq_withError rfl

/-- The map is checked before the tag (R77, C9). -/
theorem refError_of_unmapped {r : Ref} (hr : ¬ IsMappedRef r) (allowed : List Tag) :
    refError allowed r = some (.illegalRequest (.notInRegMap r)) := by
  rw [refError, inRegMap_eq, decide_eq_false hr]
  rfl

/-- Settles O25: the three requests check the map first, and refuse alike. -/
theorem unmappedReferenceIsRefused : Obligations.UnmappedReferenceIsRefused := by
  intro r value s hr
  have hrefused (m : Frame) (allowed : List Tag) :
      admitUnless (refError allowed r) m = .error (.illegalRequest (.notInRegMap r)) := by
    rw [refError_of_unmapped hr, admitUnless_some]
  rw [← raise_notInRegMap]
  exact ⟨(regRead_answersFrame r).refused (hrefused _ _), (regWrite_answersFrame r value).refused (hrefused _ _),
    (strobe_answersFrame r).refused (hrefused _ _)⟩

end Sys2Proof.Machine
end

section
/-! SUPPORT and PROOFS for the host's sequences (30_encoding.md section 5, 70_reset_and_hazards.md sections 2 and 3).
First what the host makes of one request; then the codes an instruction does not answer with (`AnswerAvoids`), by which
a sequence that ends with an outcome is known to have come past each request before it (`thenRun_past`). -/

namespace Sys2Proof.Machine

/-! ### One request -/

section
variable {i : Instr} {s t : State}

theorem ask_of_exec (h : exec i s = .next t) : ask i s = (t, t.responses.getLast?) := by
  simp only [ask, h]

theorem ask_of_withOk {d : Result} (h : exec i s = .next (t.withOk d)) :
    ask i s = (t.withOk d, some ⟨0#4, 0#16, some d, none⟩) := by
  rw [ask_of_exec h, State.withOk_responses, List.getLast?_concat]

theorem ask_of_withError {err : BitVec 4} {info : BitVec 16} (h : exec i s = .next (t.withError err info)) :
    ask i s = (t.withError err info, some ⟨err, info, none, none⟩) := by
  rw [ask_of_exec h, State.withError_responses, List.getLast?_concat]

theorem ask_of_afterFailure {sent : List Byte} {e : Nat} (h : exec i s = .next (t.afterFailure sent e)) :
    ask i s = (t.afterFailure sent e, some ⟨6#4, BitVec.ofNat 16 e, none, some e⟩) := by
  rw [ask_of_exec h, State.afterFailure_responses, List.getLast?_concat]

/-- A request with a frame puts its one transaction on the wire (R103). -/
theorem ask_wire_of_frame {m : Frame} (hf : frameOf i = some m) (s : State) :
    (ask i s).1.wire = s.wire ++ [⟨m.bytes, some (s.exchange m.body.length)⟩] := by
  obtain ⟨t, h, -, hframe⟩ := oneTransactionPerFrame i s
  rw [ask_of_exec h]
  exact (hframe m hf).1

theorem ask_wire_of_no_frame (hf : frameOf i = none) (s : State) : (ask i s).1.wire = s.wire := by
  obtain ⟨t, h, hquiet, -⟩ := oneTransactionPerFrame i s
  rw [ask_of_exec h]
  exact (hquiet hf).1

end

/-! ### `REG_MODIFY` -/

theorem frameOf_regWrite_of_config {r : Ref} (value : Byte) (hr : IsConfigRef r) :
    frameOf (.regWrite r value) = some ⟨BitVec.ofNat 8 r.addr.toNat, [value]⟩ := by
  rw [frameOf, regWriteFrame_of_config value hr]
  rfl

/-- Settles O50: the read decides whether the write is issued. -/
theorem regModifyReadsThenWrites : Obligations.RegModifyReadsThenWrites := by
  intro r f s t status v hr
  have hi := regRead_answersFrame r
  have hread := regReadFrame_of_config hr
  refine ⟨fun hx ht => ?_, fun e hx => ?_⟩
  · have hask := ask_of_withOk (hi.received hread hx)
    have hmodify : regModify r f s = command (.regWrite r (f v)) t := by
      rw [regModify, askByte, hask, ht]
      rfl
    rw [hmodify]
    exact ask_wire_of_frame (frameOf_regWrite_of_config (f v) hr) t
  · have hask := ask_of_afterFailure (hi.failed hread hx)
    rw [regModify, askByte, hask]
    exact ⟨rfl, rfl⟩

/-! ### The stability wait -/

/-- The previous sample of `d`, if valid, is the byte of the last transaction on the wire. -/
def State.LastSample (s : State) (d : Dir) : Prop :=
  s.stbValid d = true → ∃ before status v,
    s.wire = before ++ [⟨[fifoBytesHeader d, 0x00#8], some (.received status [v])⟩] ∧ v.toNat = (s.stbPrev d).toNat

theorem lastSample_clearStb (s : State) (d : Dir) (r : Result) : ((s.clearStb d).withOk r).LastSample d := by
  intro hvalid
  cases d <;> cases hvalid

theorem toNat_ofNat_of_no_fault {v : Byte} (hv : v.toNat < 128) : (BitVec.ofNat 7 v.toNat).toNat = v.toNat := by
  rw [BitVec.toNat_ofNat, Nat.mod_eq_of_lt hv]

/-- A fault-free sample becomes the previous one, and its read is the last transaction. -/
theorem lastSample_setStb (s : State) (d : Dir) (status : Byte) {v : Byte} (hv : v.toNat < 128) (r : Result) :
    (((s.afterExchange [fifoBytesHeader d, 0x00#8] status [v]).setStb d (BitVec.ofNat 7 v.toNat)).withOk r).LastSample
      d := by
  intro _
  cases d <;> exact ⟨s.wire, status, v, rfl, (toNat_ofNat_of_no_fault hv).symm⟩

/-- The last two transactions on the wire are reads of the register of `d` that both received the count `c`. -/
def State.TwoEqualSamples (s : State) (d : Dir) (c : BitVec 7) : Prop :=
  c.toNat ≠ 0 ∧ ∃ before status status' v, v.toNat = c.toNat ∧
    s.wire = before ++ [⟨[fifoBytesHeader d, 0x00#8], some (.received status [v])⟩,
      ⟨[fifoBytesHeader d, 0x00#8], some (.received status' [v])⟩]

/-- A non-zero sample equal to the previous one, which was the last on the wire. -/
theorem twoEqualSamples_of_lastSample {s t : State} {d : Dir} {status v : Byte} (hs : s.LastSample d)
    (hv : v.toNat < 128) (hne : v.toNat ≠ 0) (hvalid : s.stbValid d = true) (hprev : (s.stbPrev d).toNat = v.toNat)
    (hw : t.wire = s.wire ++ [⟨[fifoBytesHeader d, 0x00#8], some (.received status [v])⟩]) :
    t.TwoEqualSamples d (BitVec.ofNat 7 v.toNat) := by
  obtain ⟨before, status', v', hwire, hv'⟩ := hs hvalid
  obtain rfl : v' = v := BitVec.eq_of_toNat_eq (hv'.trans hprev)
  rw [State.TwoEqualSamples, toNat_ofNat_of_no_fault hv]
  exact ⟨hne, before, status', status, v', rfl, by rw [hw, hwire, List.append_assoc]; rfl⟩

theorem stableSteps_done {d : Dir} {c : BitVec 7} {polls : Nat} {s t : State} (hs : s.LastSample d)
    (h : stableSteps d polls s = (t, .done c)) : t.TwoEqualSamples d c := by
  induction polls generalizing s with
  | zero => cases h
  | succ k ih =>
    cases hx : s.exchange 1 with
    | failed e =>
      have hexec : exec (.stableStep d) s = _ := congrArg Host.Outcome.next (sampleFifo_failed hx d)
      rw [stableSteps, ask_of_afterFailure hexec] at h
      cases h
    | received status data =>
      obtain ⟨v, rfl⟩ := data_of_exchange_one hx
      have hexec := exec_stableStep_received hx d
      rw [judgeSample_eq] at hexec
      split_ifs at hexec with hfault hstable
      · rw [stableSteps, ask_of_withError hexec] at h
        cases h
      · rw [stableSteps, ask_of_withOk hexec] at h
        cases h
        obtain ⟨hne, hvalid, hprev⟩ := hstable
        exact twoEqualSamples_of_lastSample hs (Nat.not_le.mp hfault) hne (by cases d <;> exact hvalid)
          (by cases d <;> exact hprev) (State.clearStb_wire _ d)
      · rw [stableSteps, ask_of_withOk hexec] at h
        exact ih (lastSample_setStb s d status (Nat.not_le.mp hfault) _) h

/-- Settles O46: the wait starts without a previous sample, so the one it ends on was read by the wait. -/
theorem stableWaitEndsOnTwoEqualSamples : Obligations.StableWaitEndsOnTwoEqualSamples := by
  intro d polls s t c h
  have hstart : ask (.stableStart d) s = _ := ask_of_withOk (t := s.clearStb d) rfl
  rw [awaitFifoStable, command, hstart] at h
  exact stableSteps_done (lastSample_clearStb s d .none) h

/-! ### Codes that are not answered -/

/-- The codes of `TxUnderflow`, `RxOverflow` and `CrcMismatch` (R211). -/
abbrev IsOutcomeCode (code : BitVec 4) : Prop := code = 1 ∨ code = 2 ∨ code = 3

/-- The host never gets a code in `C` in response to the instruction. -/
def AnswerAvoids (C : BitVec 4 → Prop) (i : Instr) : Prop := ∀ s r, (ask i s).2 = some r → ¬ C r.err

theorem err_of_last_respond {s : State} {d : Result} {r : Response} (h : (s.respond d).responses.getLast? = some r) :
    r.err = 0 := by
  rw [State.respond_responses, List.getLast?_concat] at h
  cases h
  rfl

theorem err_of_last_raise {s : State} {e : Err} {r : Response} {code : BitVec 4} (hcode : e.code = code)
    (h : (s.raise e).responses.getLast? = some r) : r.err = code := by
  rw [State.raise_responses, List.getLast?_concat] at h
  cases h
  exact hcode

section
variable {C : BitVec 4 → Prop} {i : Instr}

theorem answerAvoids_of_exec (h : ∀ s, ∃ t, exec i s = .next t ∧ ∀ r, t.responses.getLast? = some r → ¬ C r.err) :
    AnswerAvoids C i := by
  intro s r hr
  obtain ⟨t, hexec, ht⟩ := h s
  rw [ask_of_exec hexec] at hr
  exact ht r hr

/-- A bus request answers its refusal, `Transport` (code 6), or what its continuation answers. -/
theorem answerAvoids_of_bus {a : Except Err Frame} {k : List Byte → State → State}
    (hi : ∀ s, exec i s = .next (s.busRequest a k)) (hrefusal : ∀ e, a = .error e → ¬ C e.code) (htransport : ¬ C 6)
    (hk : ∀ d u r, (k d u).responses.getLast? = some r → ¬ C r.err) : AnswerAvoids C i := by
  refine answerAvoids_of_exec fun s => ⟨_, hi s, fun r hr => ?_⟩
  rcases busRequest_cases s a k with ⟨e, ha, h⟩ | ⟨m, e, -, -, h⟩ | ⟨m, x, d, -, -, h⟩
  · rw [h] at hr
    exact err_of_last_raise rfl hr ▸ hrefusal e ha
  · rw [h] at hr
    exact err_of_last_raise (code := 6) rfl hr ▸ htransport
  · rw [h] at hr
    exact hk _ _ r hr

end

theorem code_of_refError {allowed : List Tag} {r : Ref} {e : Err} (h : refError allowed r = some e) : e.code = 8 := by
  unfold refError at h
  split_ifs at h <;> cases h <;> rfl

theorem code_of_capacityError {cap n : Nat} {e : Err} (h : capacityError cap n = some e) : e.code = 5 := by
  unfold capacityError at h
  split_ifs at h
  cases h
  rfl

theorem code_of_targetError {target : BitVec 5} {e : Err} (h : targetError target = some e) : e.code = 8 := by
  unfold targetError at h
  split_ifs at h
  cases h
  rfl

theorem eq_some_of_admitUnless {o : Option Err} {m : Frame} {e : Err} (h : admitUnless o m = .error e) :
    o = some e := by
  cases o with
  | none => cases h
  | some e' =>
    cases h
    rfl

section
variable {i : Instr} {f : List Byte → Result} {o : Option Err} {m : Frame} {code : BitVec 4}

/-- A request that answers its frame's data has the codes of its refusal, of `Transport` and of OK. -/
theorem AnswersFrame.avoids (hi : AnswersFrame i (admitUnless o m) f) (ho : ∀ e, o = some e → e.code = code)
    (hcode : ¬ IsOutcomeCode code) : AnswerAvoids IsOutcomeCode i :=
  answerAvoids_of_bus hi (fun e he => ho e (eq_some_of_admitUnless he) ▸ hcode) (by decide)
    fun _ _ _ hr => err_of_last_respond hr ▸ (by decide)

end

theorem regRead_avoids (r : Ref) : AnswerAvoids IsOutcomeCode (.regRead r) :=
  (regRead_answersFrame r).avoids (fun _ => code_of_refError) (by decide)

theorem strobe_avoids (r : Ref) : AnswerAvoids IsOutcomeCode (.strobe r) :=
  (strobe_answersFrame r).avoids (fun _ => code_of_refError) (by decide)

theorem fifoRead_avoids (n : BitVec 8) : AnswerAvoids IsOutcomeCode (.fifoRead n) :=
  (fifoRead_answersFrame n).avoids (fun _ => code_of_capacityError) (by decide)

theorem fifoWrite_avoids (data : List Byte) : AnswerAvoids IsOutcomeCode (.fifoWrite data) :=
  (fifoWrite_answersFrame data).avoids (fun _ => code_of_capacityError) (by decide)

theorem msMatch_avoids (target : BitVec 5) : AnswerAvoids IsOutcomeCode (.msMatch target) := by
  refine answerAvoids_of_bus (fun _ => rfl) (fun e he => ?_) (by decide) fun d u r hr => ?_
  · rw [code_of_targetError (eq_some_of_admitUnless he)]
    decide
  · rcases decodeMarc_cases u (d.headD 0x00#8) fun st u => u.respond (.matched (st.code = target) st) with
      ⟨-, h⟩ | ⟨st, -, h⟩
    · rw [h] at hr
      exact err_of_last_raise (code := 4) rfl hr ▸ (by decide)
    · rw [h] at hr
      exact err_of_last_respond hr ▸ (by decide)

theorem fifoPoll_avoids (d : Dir) : AnswerAvoids IsOutcomeCode (.fifoPoll d) :=
  answerAvoids_of_bus (fun _ => rfl) (fun _ he => (nomatch he)) (by decide)
    fun _ _ _ hr => err_of_last_respond hr ▸ (by decide)

theorem ufClear_avoids : AnswerAvoids IsOutcomeCode .ufClear :=
  answerAvoids_of_exec fun _ => ⟨_, rfl, fun _ hr => err_of_last_respond hr ▸ (by decide)⟩

theorem txFrame_avoids (addr : Byte) (payload : List Byte) : AnswerAvoids IsOutcomeCode (.txFrame addr payload) := by
  refine answerAvoids_of_exec fun s => ⟨_, rfl, fun r hr => ?_⟩
  split at hr
  · exact err_of_last_raise (code := 5) rfl hr ▸ (by decide)
  · exact err_of_last_respond hr ▸ (by decide)

theorem rxFrame_avoids (buf : List Byte) : AnswerAvoids IsOutcomeCode (.rxFrame buf) := by
  refine answerAvoids_of_exec fun s => ⟨_, rfl, fun r hr => ?_⟩
  split at hr
  · exact err_of_last_raise (code := 5) rfl hr ▸ (by decide)
  · split at hr
    · exact err_of_last_respond hr ▸ (by decide)
    · exact err_of_last_raise (code := 5) rfl hr ▸ (by decide)

/-- A stability wait raises no `CrcMismatch`. -/
theorem stableStep_avoids (d : Dir) : AnswerAvoids (· = 3) (.stableStep d) := by
  refine answerAvoids_of_bus (fun _ => rfl) (fun _ he => (nomatch he)) (by decide) fun data u r hr => ?_
  dsimp only [State.judgeSample] at hr
  split_ifs at hr
  · cases d
    · exact err_of_last_raise (code := 2) rfl hr ▸ (by decide)
    · exact err_of_last_raise (code := 1) rfl hr ▸ (by decide)
  · exact err_of_last_respond hr ▸ (by decide)
  · exact err_of_last_respond hr ▸ (by decide)

theorem stableStart_avoids (d : Dir) : AnswerAvoids (· = 3) (.stableStart d) :=
  answerAvoids_of_exec fun _ => ⟨_, rfl, fun _ hr => err_of_last_respond hr ▸ (by decide)⟩

/-! ### Sequences that do not end with a code -/

/-- The sequence does not end with an error response whose code is in `C`. -/
def HostEnd.Avoids {α : Type} (C : BitVec 4 → Prop) (how : HostEnd α) : Prop := ∀ r, how = .failed r → ¬ C r.err

/-- The sequence ends well, or with an error response whose code is in `C`. -/
def HostEnd.Reports {α : Type} (C : BitVec 4 → Prop) (how : HostEnd α) : Prop :=
  (∃ a, how = .done a) ∨ ∃ r, how = .failed r ∧ C r.err

section
variable {α β : Type} {C : BitVec 4 → Prop} {i : Instr} {read : Result → Option α}

theorem not_reports_timeout : ¬ (HostEnd.timeout : HostEnd α).Reports C := by simp [HostEnd.Reports]
theorem not_reports_noResponse : ¬ (HostEnd.noResponse : HostEnd α).Reports C := by simp [HostEnd.Reports]
theorem not_reports_failed {r : Response} (hr : ¬ C r.err) : ¬ (HostEnd.failed r : HostEnd α).Reports C := by
  simpa [HostEnd.Reports] using hr

/-- A sequence that is over, but not with an error response. -/
theorem avoids_done (a : α) : (HostEnd.done a).Avoids C := fun _ hr => nomatch hr
theorem avoids_timeout : (HostEnd.timeout : HostEnd α).Avoids C := fun _ hr => nomatch hr
theorem avoids_noResponse : (HostEnd.noResponse : HostEnd α).Avoids C := fun _ hr => nomatch hr

theorem avoids_failed {r : Response} (hr : ¬ C r.err) : (HostEnd.failed r : HostEnd α).Avoids C := by
  intro r' h
  cases h
  exact hr

/-- The error response that ends a sequence at a request is what the host got for it. -/
theorem not_code_of_failed {s : State} {p : State × Option Response} {r : Response} (hi : AnswerAvoids C i)
    (hask : ask i s = p) (h : readResponse p.2 read = .failed r) : ¬ C r.err := by
  obtain ⟨t, q⟩ := p
  cases q with
  | none => cases h
  | some resp =>
    rw [readResponse] at h
    split at h
    · cases h
    · cases h
      exact hi s r (by rw [hask])

theorem command_avoids (hi : AnswerAvoids C i) (s : State) : (command i s).2.Avoids C :=
  fun _ => not_code_of_failed hi rfl

theorem askByte_avoids (hi : AnswerAvoids C i) (s : State) : (askByte i s).2.Avoids C :=
  fun _ => not_code_of_failed hi rfl

theorem askBytes_avoids (hi : AnswerAvoids C i) (s : State) : (askBytes i s).2.Avoids C :=
  fun _ => not_code_of_failed hi rfl

/-- Past a first part that does not end with a code in `C`, the sequence ends as the second part does. -/
theorem thenRun_past {p : State × HostEnd α} {k : α → State → State × HostEnd β} {t : State} {how : HostEnd β}
    (h : thenRun p k = (t, how)) (hp : p.2.Avoids C) (hhow : how.Reports C) :
    ∃ a, p.2 = .done a ∧ k a p.1 = (t, how) := by
  obtain ⟨s, a | r | _ | _⟩ := p
  · exact ⟨a, rfl, h⟩
  · cases h
    exact absurd hhow (not_reports_failed (hp r rfl))
  · cases h
    exact absurd hhow not_reports_timeout
  · cases h
    exact absurd hhow not_reports_noResponse

theorem thenRun_avoids {p : State × HostEnd α} {k : α → State → State × HostEnd β} (hp : p.2.Avoids C)
    (hk : ∀ a s, (k a s).2.Avoids C) : (thenRun p k).2.Avoids C := by
  obtain ⟨s, a | r | _ | _⟩ := p
  · exact hk a s
  · exact avoids_failed (hp r rfl)
  · exact avoids_timeout
  · exact avoids_noResponse

end

theorem awaitState_avoids (target : BitVec 5) (polls : Nat) (s : State) :
    (awaitState target polls s).2.Avoids IsOutcomeCode := by
  induction polls generalizing s with
  | zero => exact avoids_timeout
  | succ k ih =>
    rw [awaitState]
    generalize hask : ask (.msMatch target) s = p
    obtain ⟨t, q⟩ := p
    dsimp only
    split
    · exact avoids_done ()
    · exact ih t
    · exact avoids_failed (not_code_of_failed (msMatch_avoids target) hask ‹_›)
    · exact avoids_timeout
    · exact avoids_noResponse

theorem stableSteps_avoids (d : Dir) (polls : Nat) (s : State) : (stableSteps d polls s).2.Avoids (· = 3) := by
  induction polls generalizing s with
  | zero => exact avoids_timeout
  | succ k ih =>
    rw [stableSteps]
    generalize hask : ask (.stableStep d) s = p
    obtain ⟨t, q⟩ := p
    dsimp only
    split
    · exact avoids_done _
    · exact ih t
    · exact avoids_failed (not_code_of_failed (stableStep_avoids d) hask ‹_›)
    · exact avoids_timeout
    · exact avoids_noResponse

theorem transmitWait_avoids (polls : Nat) (s : State) : (transmitWait polls s).2.Avoids IsOutcomeCode := by
  induction polls generalizing s with
  | zero => exact avoids_timeout
  | succ k ih =>
    rw [transmitWait]
    generalize hask : ask (.msMatch MarcState.idle.code) s = p
    obtain ⟨t, q⟩ := p
    dsimp only
    split
    · exact avoids_failed (not_code_of_failed (msMatch_avoids _) hask ‹_›)
    · exact avoids_timeout
    · exact avoids_noResponse
    · generalize hpoll : ask (.fifoPoll .tx) t = p
      obtain ⟨u, q⟩ := p
      dsimp only
      split
      · exact avoids_failed (not_code_of_failed (fifoPoll_avoids .tx) hpoll ‹_›)
      · exact avoids_timeout
      · exact avoids_noResponse
      · split
        · exact avoids_done ()
        · exact ih u

/-! ### Flush strobes -/

/-- The last transaction on the wire is a completed one-byte `sent`. -/
def State.StrobedLast (s : State) (sent : Byte) : Prop :=
  ∃ before status, s.wire = before ++ [⟨[sent], some (.received status [])⟩]

/-- A strobe that ends well is the last transaction on the wire. -/
theorem strobedLast_of_command {a : BitVec 6} {s : State} (ha : IsStrobeRef (refStrobe a))
    (h : (command (.strobe (refStrobe a)) s).2 = .done ()) :
    (command (.strobe (refStrobe a)) s).1.StrobedLast (BitVec.ofNat 8 a.toNat) := by
  obtain ⟨hstrobe, -⟩ := strobeSendsOneByte (refStrobe a) s
  obtain ⟨hreceived, hfailed⟩ := hstrobe ha
  rw [command] at h ⊢
  cases hx : s.exchange 0 with
  | failed e =>
    rw [ask_of_afterFailure (hfailed e hx)] at h
    cases h
  | received status data =>
    rw [ask_of_withOk (hreceived status data hx)]
    exact ⟨s.wire, status, rfl⟩

theorem command_wire_of_no_frame {i : Instr} (hf : frameOf i = none) (s : State) : (command i s).1.wire = s.wire :=
  ask_wire_of_no_frame hf s

theorem State.StrobedLast.of_wire {s t : State} {sent : Byte} (h : s.StrobedLast sent) (hw : t.wire = s.wire) :
    t.StrobedLast sent := by
  obtain ⟨before, status, hs⟩ := h
  exact ⟨before, status, hw.trans hs⟩

/-- Settles O51: only `TX_OUTCOME`, after the strobe, can end the sequence with `TxUnderflow`, and it sends nothing. -/
theorem transmitFlushesBeforeItsOutcome : Obligations.TransmitFlushesBeforeItsOutcome := by
  intro addr payload polls s t how h hend
  have hhow : how.Reports IsOutcomeCode := by
    rcases hend with hdone | ⟨r, hr, herr⟩
    · exact .inl ⟨(), hdone⟩
    · exact .inr ⟨r, hr, .inl herr⟩
  obtain ⟨⟨⟩, -, h⟩ := thenRun_past h (command_avoids ufClear_avoids _) hhow
  obtain ⟨frame, -, h⟩ := thenRun_past h (askBytes_avoids (txFrame_avoids addr payload) _) hhow
  obtain ⟨⟨⟩, -, h⟩ := thenRun_past h (command_avoids (fifoWrite_avoids frame) _) hhow
  obtain ⟨⟨⟩, -, h⟩ := thenRun_past h (command_avoids (strobe_avoids _) _) hhow
  obtain ⟨⟨⟩, -, h⟩ := thenRun_past h (transmitWait_avoids polls _) hhow
  obtain ⟨⟨⟩, hflush, h⟩ := thenRun_past h (command_avoids (strobe_avoids _) _) hhow
  obtain rfl := congrArg Prod.fst h
  exact (strobedLast_of_command (by decide) hflush).of_wire (command_wire_of_no_frame rfl _)

/-- A last part that issues no request leaves the state of the part before it. -/
theorem thenRun_fst {α β : Type} {p : State × HostEnd α} {k : α → State → State × HostEnd β}
    (hk : ∀ a s, (k a s).1 = s) : (thenRun p k).1 = p.1 := by
  obtain ⟨s, a | r | _ | _⟩ := p
  · exact hk a s
  · rfl
  · rfl
  · rfl

/-- A receive ends with the flush strobe and then `RX_OUTCOME`, which sends nothing. -/
theorem strobedLast_of_flush {s t : State} {ov : Bool} {lqi len : Byte} {k : Unit → State → State × HostEnd Received}
    {how : HostEnd Received} (hk : ∀ a s, (k a s).1 = s)
    (h : thenRun (command strobeSfrx s) (fun _ s => thenRun (command (.rxOutcome ov lqi len) s) k) = (t, how))
    (hhow : how.Reports IsOutcomeCode) : t.StrobedLast 0x3A#8 := by
  obtain ⟨⟨⟩, hflush, h⟩ := thenRun_past h (command_avoids (strobe_avoids _) _) hhow
  obtain rfl : _ = t := congrArg Prod.fst h
  refine (strobedLast_of_command (by decide) hflush).of_wire ?_
  rw [thenRun_fst hk]
  exact command_wire_of_no_frame rfl _

theorem strobedLast_of_receiveStable {n : BitVec 8} {polls : Nat} {s t : State} {how : HostEnd Received}
    (h : receiveStable n polls s = (t, how))
    (hhow : how.Reports IsOutcomeCode) : t.StrobedLast 0x3A#8 := by
  obtain ⟨buf, -, h⟩ := thenRun_past h (askBytes_avoids (fifoRead_avoids n) _) hhow
  generalize hask : ask (.rxFrame buf) _ = p at h
  obtain ⟨u, q⟩ := p
  dsimp only at h
  split at h
  · cases h
    exact absurd hhow (not_reports_failed (not_code_of_failed (rxFrame_avoids buf) hask ‹_›))
  · cases h
    exact absurd hhow not_reports_timeout
  · cases h
    exact absurd hhow not_reports_noResponse
  · obtain ⟨lqi, -, h⟩ := thenRun_past h (askByte_avoids (regRead_avoids _) _) hhow
    obtain ⟨⟨⟩, -, h⟩ := thenRun_past h (awaitState_avoids _ polls _) hhow
    exact strobedLast_of_flush (fun _ _ => rfl) h hhow

theorem awaitFifoStable_avoids (d : Dir) (polls : Nat) (s : State) : (awaitFifoStable d polls s).2.Avoids (· = 3) :=
  thenRun_avoids (command_avoids (stableStart_avoids d) s) fun _ t => stableSteps_avoids d polls t

/-- Settles O52: an outcome comes from `RX_OUTCOME` after the strobe; the wait itself raises no `CrcMismatch`, and after
its `RxOverflow` the host flushes. -/
theorem receiveFlushesBeforeItsOutcome : Obligations.ReceiveFlushesBeforeItsOutcome := by
  intro k polls s t how h hend
  have hhow : how.Reports IsOutcomeCode := by
    rcases hend with hdone | ⟨r, hr, herr⟩
    · exact .inl hdone
    · exact .inr ⟨r, hr, .inr herr⟩
  have hwait := awaitFifoStable_avoids .rx polls s
  unfold receive at h
  split at h
  · exact strobedLast_of_receiveStable h hhow
  · cases h
    exact absurd hhow not_reports_timeout
  · cases h
    exact absurd hhow not_reports_noResponse
  · rename_i u e heq
    have hmismatch : e.err ≠ 3 := hwait e (by rw [heq])
    split_ifs at h with hoverflow
    · exact strobedLast_of_flush (fun _ _ => rfl) h hhow
    · cases h
      exact absurd hend
        (not_reports_failed (C := fun code => code = 2 ∨ code = 3) (not_or.mpr ⟨hoverflow, hmismatch⟩))

end Sys2Proof.Machine
end
